-- ==== Sys2Proof/Word.lean ====
section
/-! DEFINITION. The word types of the TMDS encoder core: port words, symbols and bytes
(00_scope.md section 4: SYM_BITS 10, DATA_BITS 8; 20_memory.md R70: 32-bit port). -/

namespace Sys2Proof

/-- A word of the host port and of the word memories (20_memory.md R70). -/
abbrev Word := BitVec 32

/-- A 10-bit symbol (30_encoding.md R100). -/
abbrev Symbol := BitVec 10

/-- An 8-bit value: an encoder input, a packet byte (40_symbol_encoder.md R150). -/
abbrev Byte := BitVec 8

/-- A byte address of the host port (20_memory.md R70: 16 bits). -/
abbrev Addr := BitVec 16

end Sys2Proof
end

