-- ==== Sys2Proof/Syntax.lean ====
section
/-! DEFINITION. The commands of the core: one constructor per row of the opcode table
(30_encoding.md R111). -/

namespace Sys2Proof

/-- The four kinds of blanking region (10_state.md R33; 43_blanking_framer.md R224). -/
inductive RegionKind where
  /-- 0: normal hblank. -/
  | normal
  /-- 1: vsync-enter. -/
  | vsEnter
  /-- 2: vsync-active. -/
  | vsActive
  /-- 3: vsync-exit. -/
  | vsExit
  deriving DecidableEq, Repr

/-- A command (30_encoding.md R111).  A constructor carries the fields its command uses; the fields
a command ignores are not part of it (R111, R112). -/
inductive Instr where
  /-- OP 0x0, NOP (45_command_control.md R272). -/
  | nop
  /-- OP 0x1, ENC (40_symbol_encoder.md R165). -/
  | enc
  /-- OP 0x2, BUILD_LUT (41_lut_builder.md R187). -/
  | buildLut
  /-- OP 0x3, BUILD_AVI (44_infoframe_builder.md R258). -/
  | buildAvi
  /-- OP 0x4, BUILD_REGION kind, di (43_blanking_framer.md R234). -/
  | buildRegion (kind : RegionKind) (di : Bool)
  /-- OP 0x5, PACK n (42_bit_packer.md R206). -/
  | pack (count : BitVec 16)
  /-- OP 0x6, UNPACK n (42_bit_packer.md R207). -/
  | unpack (count : BitVec 16)
  /-- OP 0x7, the first reserved command (45_command_control.md R273). -/
  | reserved7
  /-- OP 0x8 to 0xF, the other reserved commands (45_command_control.md R273). -/
  | reserved8F (op : BitVec 4)
  deriving DecidableEq, Repr

end Sys2Proof
end

