-- ==== Sys2Proof/WellFormed.lean ====
section
/-! DEFINITION. Which commands have an encoding.  Every COUNT and every KIND and DI can be encoded
(30_encoding.md R112: a COUNT above 1024 is a legal encoding); only the reserved row needs a check. -/

namespace Sys2Proof

/-- The one check: the reserved row 0x8-0xF carries an OP with bit 3 set (30_encoding.md R111). -/
def Instr.wellFormed : Instr → Bool
  | .nop => true
  | .enc => true
  | .buildLut => true
  | .buildAvi => true
  | .buildRegion _ _ => true
  | .pack _ => true
  | .unpack _ => true
  | .reserved7 => true
  | .reserved8F op => op.getLsbD 3

end Sys2Proof
end

