-- ==== Sys2Proof/Decode.lean ====
section
/-! DEFINITION. The command word (30_encoding.md R111 to R113): the decoder, the encoder, and the
decoder as the opcode table's numbering of bits reads it. -/

namespace Sys2Proof

/-- The region kind a 2-bit KIND field names (10_state.md R33). -/
def regionKindOfBits (b : BitVec 2) : RegionKind :=
  match b with
  | 0#2 => .normal
  | 1#2 => .vsEnter
  | 2#2 => .vsActive
  | 3#2 => .vsExit

/-- The KIND field of a region kind (10_state.md R33). -/
def regionKindBits : RegionKind → BitVec 2
  | .normal => 0#2
  | .vsEnter => 1#2
  | .vsActive => 2#2
  | .vsExit => 3#2

/-- CMD.OP, bits 3:0 (30_encoding.md R111). -/
def cmdOp (w : Word) : BitVec 4 := w.extractLsb' 0 4

/-- CMD.KIND, bits 5:4 (30_encoding.md R111). -/
def cmdKind (w : Word) : BitVec 2 := w.extractLsb' 4 2

/-- CMD.DI, bit 6 (30_encoding.md R111). -/
def cmdDi (w : Word) : Bool := w.getLsbD 6

/-- CMD.COUNT, bits 31:16 (30_encoding.md R111). -/
def cmdCount (w : Word) : BitVec 16 := w.extractLsb' 16 16

/-- The command a CMD word issues.  OP alone chooses the row (30_encoding.md R113), every OP has a
row, and bits 15:7 and the fields the command does not use are ignored (R111, R112). -/
def decodeWord (w : Word) : Instr :=
  match cmdOp w with
  | 0x0#4 => .nop
  | 0x1#4 => .enc
  | 0x2#4 => .buildLut
  | 0x3#4 => .buildAvi
  | 0x4#4 => .buildRegion (regionKindOfBits (cmdKind w)) (cmdDi w)
  | 0x5#4 => .pack (cmdCount w)
  | 0x6#4 => .unpack (cmdCount w)
  | 0x7#4 => .reserved7
  | op => .reserved8F op

/-- A CMD word from its fields, the reserved bits 15:7 clear (30_encoding.md R111). -/
def cmdWord (count : BitVec 16) (di : Bool) (kind : BitVec 2) (op : BitVec 4) : Word :=
  count ++ 0#9 ++ BitVec.ofBool di ++ kind ++ op

/-- The CMD word of a command, with every field it does not use clear (30_encoding.md R111, R114). -/
def encode : Instr → Word
  | .nop => cmdWord 0#16 false 0#2 0x0#4
  | .enc => cmdWord 0#16 false 0#2 0x1#4
  | .buildLut => cmdWord 0#16 false 0#2 0x2#4
  | .buildAvi => cmdWord 0#16 false 0#2 0x3#4
  | .buildRegion kind di => cmdWord 0#16 di (regionKindBits kind) 0x4#4
  | .pack count => cmdWord count false 0#2 0x5#4
  | .unpack count => cmdWord count false 0#2 0x6#4
  | .reserved7 => cmdWord 0#16 false 0#2 0x7#4
  | .reserved8F op => cmdWord 0#16 false 0#2 op

/-- Why a string of bits is no command word.  Neither arises on the port, where a command is always
one whole 32-bit word (30_encoding.md R111); both are safe, since they only refuse. -/
inductive DecodeError where
  /-- More than the 32 bits of a command word. -/
  | tooLong
  /-- A bit set above the given length. -/
  | strayBits
  deriving DecidableEq, Repr

/-- The command in a string of nbits bits of value w, bit 0 the least significant bit of the word
(30_encoding.md R111: one 32-bit word).  Bits above nbits are 0. -/
def decode (nbits w : Nat) : Except DecodeError Instr :=
  if 32 < nbits then .error .tooLong
  else if 2 ^ nbits ≤ w then .error .strayBits
  else .ok (decodeWord (BitVec.ofNat 32 w))

/-- The command the decoder reads from a table row's bits (30_encoding.md R111: CMD moves as one
whole word, so there is no byte order to lay out; 20_memory.md R74). -/
def decodeTableWord (nbits w : Nat) : Option Instr :=
  match decode nbits w with
  | .ok i => some i
  | .error _ => none

end Sys2Proof
end

