-- ==== Sys2Proof/Config.lean ====
section
/-! DEFINITION. What an implementation of the core fixes (the parameters of 00_scope.md R3) and the
free values the spec leaves open (20_memory.md R79). -/

namespace Sys2Proof

/-- The configuration parameters of 00_scope.md R3.  They are constants of one core: no step writes
them (70_reset_and_hazards.md R342).  The default values are `Machine.defaultParams`. -/
structure Params where
  /-- DEPTH5TO8, the 5-bit to 8-bit colour conversion, as its 32 values (41_lut_builder.md R180). -/
  depth5to8 : Vector Byte 32
  /-- AVI_HB, the four header bytes (44_infoframe_builder.md R250). -/
  aviHb : Vector Byte 4
  /-- CTRL_TABLE: entry 2 c1 + c0 is CTRL(c1, c0) (30_encoding.md R101). -/
  ctrlTable : Vector Symbol 4
  /-- TERC4_TABLE: entry n is TERC4(n) (30_encoding.md R102). -/
  terc4Table : Vector Symbol 16
  /-- VGB0, the video guard band of channel 0 (30_encoding.md R103). -/
  vgb0 : Symbol
  /-- VGB1, the video guard band of channel 1 (30_encoding.md R103). -/
  vgb1 : Symbol
  /-- VGB2, the video guard band of channel 2 (30_encoding.md R103). -/
  vgb2 : Symbol
  /-- DIGB, the data-island guard band of channels 1 and 2 (30_encoding.md R103). -/
  digb : Symbol
  deriving DecidableEq, Repr

/-- FREE VALUE (20_memory.md R79; assumption log 6): the word the n-th free draw gives.  It has no
body, so nothing can be proved about which word it is. -/
opaque Config.freeDraw : Nat → Word

end Sys2Proof
end

