-- ==== Sys2Proof/Machine/Tables.lean ====
section
/-! DEFINITION. The constant tables: the defaults of the parameters (00_scope.md R3) and the table
lookups CTRL(c1, c0) and TERC4(n). -/

namespace Sys2Proof.Machine

/-- The default DEPTH5TO8: bit replication, (c << 3) | (c >> 2) (41_lut_builder.md R180). -/
def bitReplicate (c : BitVec 5) : Byte :=
  (c.setWidth 8 <<< 3) ||| (c.setWidth 8 >>> 2)

/-- DEPTH5TO8_default as its table of 32 values (41_lut_builder.md R180). -/
def defaultDepth5to8 : Vector Byte 32 :=
  ⟨((List.range 32).map fun c => bitReplicate (BitVec.ofNat 5 c)).toArray, by simp⟩

/-- The default parameters (00_scope.md R3; 30_encoding.md R101 to R103;
44_infoframe_builder.md R250).  PRESUMED by the spec itself from general knowledge of DVI and HDMI
(93_implementation_defined.md X1 to X3, X9, X10, X12); assumption log 4. -/
def defaultParams : Params where
  depth5to8 := defaultDepth5to8
  aviHb := #v[0x82#8, 0x02#8, 0x0D#8, 0xE4#8]
  ctrlTable := #v[0x354#10, 0x0AB#10, 0x154#10, 0x2AB#10]
  terc4Table := #v[0x29C#10, 0x263#10, 0x2E4#10, 0x2E2#10, 0x171#10, 0x11E#10, 0x18E#10, 0x13C#10,
    0x2CC#10, 0x139#10, 0x19C#10, 0x2C6#10, 0x28E#10, 0x271#10, 0x163#10, 0x2C3#10]
  vgb0 := 0x2CC#10
  vgb1 := 0x133#10
  vgb2 := 0x2CC#10
  digb := 0x133#10

/-- CTRL(c1, c0), entry 2 c1 + c0 of CTRL_TABLE (30_encoding.md R101). -/
def ctrlSym (p : Params) (c1 c0 : Bool) : Symbol :=
  match c1, c0 with
  | false, false => p.ctrlTable[0]
  | false, true => p.ctrlTable[1]
  | true, false => p.ctrlTable[2]
  | true, true => p.ctrlTable[3]

/-- TERC4(n) (30_encoding.md R102). -/
def terc4Sym (p : Params) (n : BitVec 4) : Symbol :=
  p.terc4Table[n.toNat]'n.isLt

/-- The 4-bit value with the given bits, bit 3 first: {b3, b2, b1, b0} (00_scope.md section 5). -/
def nibble (b3 b2 b1 b0 : Bool) : BitVec 4 :=
  BitVec.ofBool b3 ++ BitVec.ofBool b2 ++ BitVec.ofBool b1 ++ BitVec.ofBool b0

end Sys2Proof.Machine
end

