-- ==== Sys2Proof/Machine/State.lean ====
section
/-! DEFINITION. The state of the core as plain data (10_state.md R49), the inputs that reach it, the
reasons a run stops, and the state after reset (70_reset_and_hazards.md R340, R341). -/

namespace Sys2Proof.Machine

/-- A memory of w-bit elements, some of them not written since reset (10_state.md R49): the written
elements only, as (index, value) pairs, indexes strictly rising.  An unlisted element is unwritten
(R341).  The spec gives these memories no byte view (20_memory.md R71; 91_not_in_source.md N4). -/
abbrev Memory (w : Nat) := List (Nat × BitVec w)

/-- The canonical form of a memory of `size` elements: indexes strictly rising, all below `size`. -/
abbrev Memory.wf {w : Nat} (size : Nat) (m : Memory w) : Prop :=
  m.Pairwise (fun a b => a.1 < b.1) ∧ ∀ c ∈ m, c.1 < size

/-- An element of a memory, for the fault UninitRead (60_exceptions.md R312). -/
inductive Element where
  /-- LUT_MEM[i]. -/
  | lutMem (i : Nat)
  /-- INFO_MEM[i]. -/
  | infoMem (i : Nat)
  /-- REGION_MEM[k][c][w]. -/
  | regionMem (k c w : Nat)
  /-- PACK_IN[i]. -/
  | packIn (i : Nat)
  /-- PACK_OUT[i]. -/
  | packOut (i : Nat)
  deriving DecidableEq, Repr

/-- Why a host write broke the BUSY contract (60_exceptions.md R306). -/
inductive ContractReason where
  /-- A write to CMD while BUSY = 1. -/
  | cmdWhileBusy
  /-- A write to ENC_IN, a timing register, SYNC_CFG or VIC while BUSY = 1. -/
  | configWhileBusy
  /-- A write to PACK_IN or PACK_OUT while BUSY = 1. -/
  | bufferWhileBusy
  deriving DecidableEq, Repr

/-- The model faults of 60_exceptions.md section 2.  The access or the completion that meets one
records it in the state (`State.fault`); every later step answers it (45_command_control.md R277). -/
inductive Fault where
  /-- R305: raised by a host access that is not an aligned 32-bit access in a mapped range.  Safe: the
  run stops where the chip may go on. -/
  | busError (addr : Addr)
  /-- R306: raised by a host write that breaks the BUSY contract.  Safe: the run stops where the chip
  may go on. -/
  | hostContract (reason : ContractReason)
  /-- R312: raised by a host read, or a command's read of a source, of an element nothing has written
  since reset.  Safe: the run stops where the chip goes on with some value. -/
  | uninitRead (element : Element)
  deriving DecidableEq, Repr

/-- Reasons a command has no meaning in the model. -/
inductive Refusal where
  /-- Raised by an arm of `exec` whose command has no meaning yet (none is left).  Safe. -/
  | notModelled (mnemonic : String)
  deriving DecidableEq, Repr

/-- The width of a host access (20_memory.md R71): only a 32-bit access is legal. -/
inductive Width where
  /-- 1 byte. -/
  | byte
  /-- 2 bytes. -/
  | half
  /-- 4 bytes. -/
  | word
  /-- 8 bytes. -/
  | double
  deriving DecidableEq, Repr

/-- A host access (20_memory.md R70).  The value of an access of another width than 32 bits is never
used: such an access has no effect (R71). -/
inductive HostOp where
  /-- MemRead(addr, width). -/
  | read (width : Width) (addr : Addr)
  /-- MemWrite(addr, width, value). -/
  | write (width : Width) (addr : Addr) (value : Word)
  deriving DecidableEq, Repr

/-- What reaches the core next: a host access, the scheduler's choice to let the pending command
complete (45_command_control.md R277), or the reset input (70_reset_and_hazards.md R343).
Assumption log 1, 11. -/
inductive Event where
  /-- One host access (R70). -/
  | host (op : HostOp)
  /-- The core's turn: the completion step, where a command is pending (R271). -/
  | core
  /-- The reset input (R340). -/
  | reset
  deriving DecidableEq, Repr

/-- The STATUS fields of 10_state.md R34.  Bit k of `regionValid` is STATUS bit 8 + k, bit k of
`regionDi` is STATUS bit 12 + k. -/
structure Status where
  busy : Bool
  err : Bool
  aviValid : Bool
  lutValid : Bool
  errCode : BitVec 4
  regionValid : BitVec 4
  regionDi : BitVec 4
  deriving DecidableEq, Repr

/-- The registers the host writes (10_state.md R35, R37 to R39). -/
structure HostRegs where
  /-- ENC_IN bits 12:0: VALUE in 7:0, DISP_IN in 12:8 (R35). -/
  encIn : BitVec 13
  hActive : BitVec 16
  hFp : BitVec 16
  hPulse : BitVec 16
  hBp : BitVec 16
  hTotal : BitVec 16
  /-- SYNC_CFG bit 0 (R38). -/
  hsAct : Bool
  /-- SYNC_CFG bit 1 (R38). -/
  vsAct : Bool
  vic : Byte
  deriving DecidableEq, Repr

/-- Everything a command can read, as it stood at issue (10_state.md R40, R48;
45_command_control.md R270; assumption log 9). -/
structure Snapshot where
  regs : HostRegs
  /-- STATUS.AVI_VALID at issue (43_blanking_framer.md R232). -/
  aviValid : Bool
  infoMem : Memory 32
  packIn : Memory 10
  packOut : Memory 32
  deriving DecidableEq, Repr

/-- The command in progress: the CMD word and its snapshot (10_state.md R48). -/
structure Pending where
  word : Word
  snap : Snapshot
  deriving DecidableEq, Repr

/-- The state of the core (10_state.md R49), the parameters it carries (00_scope.md R3, assumption
log 4), and the model's own fields `inbox`, `reply`, `draws` (assumption log 1, 5). -/
structure State where
  /-- STATUS (R34). -/
  status : Status
  /-- The host-written registers (R35, R37 to R39). -/
  regs : HostRegs
  /-- ENC_OUT.SYMBOL, bits 9:0 (R36). -/
  encSymbol : Symbol
  /-- ENC_OUT.DISP_OUT, bits 20:16 (R36). -/
  encDispOut : BitVec 5
  /-- LUT_MEM, 1024 words (R42). -/
  lutMem : Memory 32
  /-- INFO_MEM, 40 words (R43). -/
  infoMem : Memory 32
  /-- REGION_MEM, element 256 (3 k + c) + w for REGION_MEM[k][c][w] (R44; 20_memory.md R72). -/
  regionMem : Memory 32
  /-- PACK_IN, 1024 entries of 10 bits (R45). -/
  packIn : Memory 10
  /-- PACK_OUT, 320 words (R46). -/
  packOut : Memory 32
  /-- The pending command (R48). -/
  pending : Option Pending
  /-- The recorded fault, sticky (R49). -/
  fault : Option Fault
  /-- The parameters of this core, never written (70_reset_and_hazards.md R342). -/
  params : Params
  /-- MODEL's own: what reaches the core, in order, the next first. -/
  inbox : List Event
  /-- MODEL's own: the answer to the last host read that got one. -/
  reply : Option Word
  /-- MODEL's own: how many free values have been drawn. -/
  draws : Nat
  deriving DecidableEq, Repr

/-- STATUS after reset, 0x00000000 (70_reset_and_hazards.md R340). -/
def Status.reset : Status where
  busy := false
  err := false
  aviValid := false
  lutValid := false
  errCode := 0
  regionValid := 0
  regionDi := 0

/-- The host-written registers after reset, all 0 (10_state.md R32; 70_reset_and_hazards.md R340). -/
def HostRegs.reset : HostRegs where
  encIn := 0
  hActive := 0
  hFp := 0
  hPulse := 0
  hBp := 0
  hTotal := 0
  hsAct := false
  vsAct := false
  vic := 0

/-- The machine right after reset (70_reset_and_hazards.md R340, R341), with the default parameters
(00_scope.md R3) and nothing in the inbox. -/
def State.reset : State where
  status := Status.reset
  regs := HostRegs.reset
  encSymbol := 0
  encDispOut := 0
  lutMem := []
  infoMem := []
  regionMem := []
  packIn := []
  packOut := []
  pending := none
  fault := none
  params := defaultParams
  inbox := []
  reply := none
  draws := 0

end Sys2Proof.Machine
end

