-- ==== Sys2Proof/Machine/Flags.lean ====
section
/-! DEFINITION. STATUS: its word, the error codes, and every change of its fields the spec gives
(10_state.md R34, R41; 60_exceptions.md R301). -/

namespace Sys2Proof.Machine

/-- The codes of InvalidInput (60_exceptions.md R301).  Code 0 is no error; 8 (CHECKSUM) and 9 to 15
are never raised (R311; 93_implementation_defined.md X32). -/
inductive ErrCode where
  | reservedOp
  | dispRange
  | timing
  | diLength
  | diPulse
  | aviNotBuilt
  | packCount
  deriving DecidableEq, Repr

/-- The value ERRCODE takes (60_exceptions.md R301). -/
def errCodeBits : ErrCode → BitVec 4
  | .reservedOp => 1#4
  | .dispRange => 2#4
  | .timing => 3#4
  | .diLength => 4#4
  | .diPulse => 5#4
  | .aviNotBuilt => 6#4
  | .packCount => 7#4

/-- STATUS as the host reads it (10_state.md R34): REGION_DI 15:12, REGION_VALID 11:8, ERRCODE 7:4,
LUT_VALID 3, AVI_VALID 2, ERR 1, BUSY 0, and 0 in bits 31:16. -/
def statusWord (st : Status) : Word :=
  0#16 ++ st.regionDi ++ st.regionValid ++ st.errCode ++ BitVec.ofBool st.lutValid ++
    BitVec.ofBool st.aviValid ++ BitVec.ofBool st.err ++ BitVec.ofBool st.busy

/-- Bit k of a 4-bit field (the REGION_VALID or REGION_DI bit of kind k). -/
def regionBit (field : BitVec 4) (k : Nat) : Bool := field.getLsbD k

/-- A 4-bit field with bit k written (10_state.md R34). -/
def putRegionBit (field : BitVec 4) (k : Nat) (b : Bool) : BitVec 4 :=
  if b then field ||| (1#4 <<< k) else field &&& ~~~(1#4 <<< k)

/-- Issue: BUSY <- 1, ERR <- 0, ERRCODE <- 0 (45_command_control.md R270). -/
def statusIssued (st : Status) : Status := { st with busy := true, err := false, errCode := 0 }

/-- Completion: BUSY <- 0 (45_command_control.md R271). -/
def statusDone (st : Status) : Status := { st with busy := false }

/-- InvalidInput(code): ERR <- 1, ERRCODE <- code (45_command_control.md R271). -/
def statusInvalid (code : ErrCode) (st : Status) : Status :=
  { st with err := true, errCode := errCodeBits code }

/-- LUT_VALID <- 1 (41_lut_builder.md R187). -/
def statusLutBuilt (st : Status) : Status := { st with lutValid := true }

/-- AVI_VALID <- 1 (44_infoframe_builder.md R258). -/
def statusAviBuilt (st : Status) : Status := { st with aviValid := true }

/-- REGION_VALID[k] <- 1, REGION_DI[k] <- di (43_blanking_framer.md R234). -/
def statusRegionBuilt (k : Nat) (di : Bool) (st : Status) : Status :=
  { st with
    regionValid := putRegionBit st.regionValid k true
    regionDi := putRegionBit st.regionDi k di }

/-- A write to a timing register clears all four REGION_VALID bits (10_state.md R41). -/
def statusTimingWritten (st : Status) : Status := { st with regionValid := 0 }

/-- A write to VIC or SYNC_CFG clears AVI_VALID and all four REGION_VALID bits (10_state.md R41). -/
def statusPacketWritten (st : Status) : Status := { st with aviValid := false, regionValid := 0 }

end Sys2Proof.Machine
end

