-- ==== Sys2Proof/Machine/Ops.lean ====
section
/-! DEFINITION. The operations the commands and the host port share: the memories, the issue of a
command, its completion with a result or with InvalidInput, the record of a fault, and reset. -/

namespace Sys2Proof.Machine

/-! ## Memories (10_state.md R42 to R46, R49) -/

/-- Element i of a memory, `none` where nothing has written it since reset (10_state.md R49). -/
def memGet {w : Nat} (m : Memory w) (i : Nat) : Option (BitVec w) := m.lookup i

/-- The cells of consecutive elements from index `base`. -/
def cellsFrom {w : Nat} : Nat → List (BitVec w) → Memory w
  | _, [] => []
  | base, v :: vs => (base, v) :: cellsFrom (base + 1) vs

/-- A memory with the elements `base`, `base + 1`, ... written with the given values. -/
def memPut {w : Nat} (m : Memory w) (base : Nat) (vs : List (BitVec w)) : Memory w :=
  m.filter (fun c => c.1 < base) ++ cellsFrom base vs ++ m.filter (fun c => base + vs.length ≤ c.1)

/-- The elements `base`, ..., `base + n - 1`, or the first of them nothing has written since reset
(60_exceptions.md R312; assumption log 8). -/
def memGetRange {w : Nat} (element : Nat → Element) (m : Memory w) :
    Nat → Nat → Except Element (List (BitVec w))
  | _, 0 => .ok []
  | base, n + 1 =>
    match memGet m base with
    | none => .error (element base)
    | some v =>
      match memGetRange element m (base + 1) n with
      | .ok vs => .ok (v :: vs)
      | .error e => .error e

/-- The number k of a region kind (10_state.md R33, R44). -/
def kindIndex : RegionKind → Nat
  | .normal => 0
  | .vsEnter => 1
  | .vsActive => 2
  | .vsExit => 3

/-- The REGION_MEM element of REGION_MEM[k][c][0] (20_memory.md R72: block b = 3 k + c of 256 words). -/
def regionBase (k c : Nat) : Nat := 256 * (3 * k + c)

/-! ## Issue and completion (45_command_control.md R270, R271) -/

/-- The sources as they stand now (45_command_control.md R270). -/
def takeSnapshot (s : State) : Snapshot where
  regs := s.regs
  aviValid := s.status.aviValid
  infoMem := s.infoMem
  packIn := s.packIn
  packOut := s.packOut

/-- Issue of the command word w (45_command_control.md R270). -/
def issueCommand (w : Word) (s : State) : State :=
  { s with
    pending := some { word := w, snap := takeSnapshot s }
    status := statusIssued s.status }

/-- The pending command, decoded (45_command_control.md R270, R271). -/
def fetchCommand (s : State) : Option Instr :=
  match s.pending with
  | none => none
  | some p => some (decodeWord p.word)

/-- The sources a completing command reads: the snapshot of the pending command (10_state.md R40,
R48).  With no command pending, which no step completes, the present sources (assumption log 9). -/
def sources (s : State) : Snapshot :=
  match s.pending with
  | none => takeSnapshot s
  | some p => p.snap

/-- The end of every completion: BUSY <- 0, pending <- none (45_command_control.md R271). -/
def finish (s : State) : State :=
  { s with status := statusDone s.status, pending := none }

/-- Completion with InvalidInput(code): ERR, ERRCODE, BUSY and the pending command change and nothing
else (45_command_control.md R271; 60_exceptions.md R300, R302). -/
def invalidInput (code : ErrCode) (s : State) : State :=
  finish { s with status := statusInvalid code s.status }

/-- The record of a fault, with no other effect (60_exceptions.md R305, R306, R312). -/
def recordFault (f : Fault) (s : State) : State := { s with fault := some f }

/-- The reset input (70_reset_and_hazards.md R340, R341, R343): the state of reset, a pending command
abandoned.  The parameters stay (R342), and so do the inputs still to come and the count of free
values drawn (assumption log 11). -/
def resetCore (s : State) : State :=
  { State.reset with params := s.params, inbox := s.inbox, draws := s.draws }

end Sys2Proof.Machine
end

