-- ==== Sys2Proof/Machine/Operands.lean ====
section
/-! DEFINITION. Operand fields: ENC_IN and ENC_OUT (30_encoding.md R110), bit counts
(00_scope.md section 5), the register images the host reads and writes, and the timing operands. -/

namespace Sys2Proof.Machine

/-- popcount(v) (00_scope.md section 5). -/
def popcount {w : Nat} (v : BitVec w) : Nat := ((List.range w).filter v.getLsbD).length

/-- ENC_IN.VALUE (30_encoding.md R110). -/
def encValue (encIn : BitVec 13) : Byte := encIn.extractLsb' 0 8

/-- d_in = sext_5(ENC_IN[12:8]) (30_encoding.md R110). -/
def encDispIn (encIn : BitVec 13) : Int := (encIn.extractLsb' 8 5).toInt

/-- twos_5(d) (00_scope.md section 5; 30_encoding.md R110). -/
def twos5 (d : Int) : BitVec 5 := BitVec.ofInt 5 d

/-- ENC_OUT as the host reads it (10_state.md R36; 30_encoding.md R110). -/
def encOutWord (sym : Symbol) (disp : BitVec 5) : Word := 0#11 ++ disp ++ 0#6 ++ sym

/-- SYNC_CFG as the host reads it (10_state.md R38). -/
def syncCfgWord (hs vs : Bool) : Word := 0#30 ++ BitVec.ofBool vs ++ BitVec.ofBool hs

/-- Bits 15:0 of a written word, what a timing register keeps (10_state.md R37). -/
def low16 (v : Word) : BitVec 16 := v.extractLsb' 0 16

/-- Bits 12:0 of a written word, what ENC_IN keeps (10_state.md R35). -/
def low13 (v : Word) : BitVec 13 := v.extractLsb' 0 13

/-- Bits 9:0 of a written word, what a PACK_IN entry keeps (10_state.md R45). -/
def low10 (v : Word) : Symbol := v.extractLsb' 0 10

/-- Bits 7:0 of a written word, what VIC keeps (10_state.md R39). -/
def low8 (v : Word) : Byte := v.extractLsb' 0 8

/-- L = HT - HA, the region length (43_blanking_framer.md R220). -/
def regionLength (r : HostRegs) : Nat := r.hTotal.toNat - r.hActive.toNat

/-- The timing BUILD_REGION accepts (43_blanking_framer.md R221).  The first condition makes HT - HA
no less than 0, so the subtraction of natural numbers is the integers'. -/
def timingValid (r : HostRegs) : Bool :=
  r.hTotal.toNat == r.hActive.toNat + r.hFp.toNat + r.hPulse.toNat + r.hBp.toNat &&
    10 ≤ r.hFp.toNat && 12 ≤ r.hBp.toNat && regionLength r ≤ 816

end Sys2Proof.Machine
end

