-- ==== Sys2Proof/Machine/Control.lean ====
section
/-! DEFINITION. NOP and the reserved commands (45_command_control.md R272, R273). -/

namespace Sys2Proof.Machine

/-- NOP completes with no writes (45_command_control.md R272). -/
def execNop (s : State) : Host.Outcome State Fault Refusal := .next (finish s)

/-- OP 0x7 completes with InvalidInput(RESERVED_OP) (45_command_control.md R273). -/
def execReserved7 (s : State) : Host.Outcome State Fault Refusal :=
  .next (invalidInput .reservedOp s)

/-- OP 0x8 to 0xF completes with InvalidInput(RESERVED_OP), whatever else the word holds
(45_command_control.md R273). -/
def execReserved8F (_op : BitVec 4) (s : State) : Host.Outcome State Fault Refusal :=
  .next (invalidInput .reservedOp s)

end Sys2Proof.Machine
end

