-- ==== Sys2Proof/Machine/Packer.lean ====
section
/-! DEFINITION. The Bit Packer, PACK and UNPACK (42_bit_packer.md). -/

namespace Sys2Proof.Machine

/-- G = ceil(n / 16), the groups of n symbols (42_bit_packer.md R201). -/
def groupsOf (n : Nat) : Nat := (n + 15) / 16

/-- PACK16: the five words of a group (30_encoding.md R105, as the source writes them).  A symbol the
list does not hold is the zero padding of 42_bit_packer.md R201. -/
def pack16 (s : List Symbol) : List Word :=
  let x := fun i => (s.getD i 0#10).setWidth 32
  [ x 0 ||| x 1 <<< 10 ||| x 2 <<< 20 ||| (x 3 &&& 0x3#32) <<< 30,
    x 3 >>> 2 ||| x 4 <<< 8 ||| x 5 <<< 18 ||| (x 6 &&& 0xF#32) <<< 28,
    x 6 >>> 4 ||| x 7 <<< 6 ||| x 8 <<< 16 ||| (x 9 &&& 0x3F#32) <<< 26,
    x 9 >>> 6 ||| x 10 <<< 4 ||| x 11 <<< 14 ||| (x 12 &&& 0xFF#32) <<< 24,
    x 12 >>> 8 ||| x 13 <<< 2 ||| x 14 <<< 12 ||| x 15 <<< 22 ]

/-- The words of the first g groups of a sequence (42_bit_packer.md R201). -/
def packGroups : Nat → List Symbol → List Word
  | 0, _ => []
  | g + 1, s => pack16 (s.take 16) ++ packGroups g (s.drop 16)

/-- PACK over a sequence: zero padding to whole groups, five words a group (42_bit_packer.md R201). -/
def packSymbols (s : List Symbol) : List Word := packGroups (groupsOf s.length) s

/-- UNPACK16: the 16 symbols of five words (42_bit_packer.md R202). -/
def unpack16 (ws : List Word) : List Symbol :=
  let w := fun j => ws.getD j 0#32
  [ (w 0).extractLsb' 0 10,
    (w 0).extractLsb' 10 10,
    (w 0).extractLsb' 20 10,
    (w 1).extractLsb' 0 8 ++ (w 0).extractLsb' 30 2,
    (w 1).extractLsb' 8 10,
    (w 1).extractLsb' 18 10,
    (w 2).extractLsb' 0 6 ++ (w 1).extractLsb' 28 4,
    (w 2).extractLsb' 6 10,
    (w 2).extractLsb' 16 10,
    (w 3).extractLsb' 0 4 ++ (w 2).extractLsb' 26 6,
    (w 3).extractLsb' 4 10,
    (w 3).extractLsb' 14 10,
    (w 4).extractLsb' 0 2 ++ (w 3).extractLsb' 24 8,
    (w 4).extractLsb' 2 10,
    (w 4).extractLsb' 12 10,
    (w 4).extractLsb' 22 10 ]

/-- The symbols of the first g groups of a packed sequence (42_bit_packer.md R203). -/
def unpackGroups : Nat → List Word → List Symbol
  | 0, _ => []
  | g + 1, ws => unpack16 (ws.take 5) ++ unpackGroups g (ws.drop 5)

/-- UNPACK over a sequence: the first n symbols (42_bit_packer.md R203). -/
def unpackSymbols (ws : List Word) (n : Nat) : List Symbol := (unpackGroups (groupsOf n) ws).take n

/-- PACK n (42_bit_packer.md R206): InvalidInput(PACK_COUNT) above 1024, UninitRead at a source entry
nothing has written (60_exceptions.md R312), otherwise PACK_OUT[0 .. 5 G - 1]. -/
def execPack (count : BitVec 16) (s : State) : Host.Outcome State Fault Refusal :=
  if 1024 < count.toNat then .next (invalidInput .packCount s)
  else
    match memGetRange .packIn (sources s).packIn 0 count.toNat with
    | .error e => .next (recordFault (.uninitRead e) s)
    | .ok syms => .next (finish { s with packOut := memPut s.packOut 0 (packSymbols syms) })

/-- UNPACK n (42_bit_packer.md R207): InvalidInput(PACK_COUNT) above 1024, UninitRead at a source word
nothing has written (60_exceptions.md R312), otherwise PACK_IN[0 .. n - 1]. -/
def execUnpack (count : BitVec 16) (s : State) : Host.Outcome State Fault Refusal :=
  if 1024 < count.toNat then .next (invalidInput .packCount s)
  else
    match memGetRange .packOut (sources s).packOut 0 (5 * groupsOf count.toNat) with
    | .error e => .next (recordFault (.uninitRead e) s)
    | .ok ws => .next (finish { s with packIn := memPut s.packIn 0 (unpackSymbols ws count.toNat) })

end Sys2Proof.Machine
end

