-- ==== Sys2Proof/Machine/InfoFrame.lean ====
section
/-! DEFINITION. The InfoFrame Builder and BUILD_AVI (44_infoframe_builder.md). -/

namespace Sys2Proof.Machine

/-- HB[i] (44_infoframe_builder.md R250). -/
def headerByte (p : Params) (i : Nat) : Byte := p.aviHb.toList.getD i 0#8

/-- The 31 body bytes: all zero but body[3] = VIC (44_infoframe_builder.md R251). -/
def aviBody (vic : Byte) : List Byte := List.replicate 3 0#8 ++ [vic] ++ List.replicate 27 0#8

/-- The sum of bytes modulo 256 (44_infoframe_builder.md R252). -/
def byteSum (bs : List Byte) : Byte := bs.foldr (· + ·) 0#8

/-- The packet checksum cs (44_infoframe_builder.md R252): HB[3] is not in the sum. -/
def packetChecksum (p : Params) (vic : Byte) : Byte :=
  0#8 - (headerByte p 0 + headerByte p 1 + headerByte p 2 + byteSum (aviBody vic))

/-- The 32 bytes of the body channels: cs, then the body (44_infoframe_builder.md R254). -/
def channelBytes (p : Params) (vic : Byte) : List Byte := packetChecksum p vic :: aviBody vic

/-- hbit(i) = HB[i div 8][i mod 8], bit 0 of HB[0] first (44_infoframe_builder.md R255). -/
def headerBit (p : Params) (i : Nat) : Bool := (headerByte p (i / 8)).getLsbD (i % 8)

/-- The channel-0 symbol s of a packet: bit 3 is 0 for symbol 0 and 1 for the others, bit 2 the header
bit, bits 1:0 VSYNC and HSYNC (44_infoframe_builder.md R255; 43_blanking_framer.md R230). -/
def packetHeaderSym (p : Params) (s : Nat) (hbit vs hs : Bool) : Symbol :=
  terc4Sym p (nibble (s != 0) hbit vs hs)

/-- Header stream with the given VSYNC and HSYNC levels (44_infoframe_builder.md R255). -/
def headerStream (p : Params) (vs hs : Bool) : List Symbol :=
  (List.range 32).map fun i => packetHeaderSym p i (headerBit p i) vs hs

/-- Stream 2, channel 1: the low nibbles (44_infoframe_builder.md R256). -/
def lowStream (p : Params) (vic : Byte) : List Symbol :=
  (channelBytes p vic).map fun b => terc4Sym p (b.extractLsb' 0 4)

/-- Stream 3, channel 2: the high nibbles (44_infoframe_builder.md R256). -/
def highStream (p : Params) (vic : Byte) : List Symbol :=
  (channelBytes p vic).map fun b => terc4Sym p (b.extractLsb' 4 4)

/-- The four packed streams in the order of INFO_MEM, 40 words (44_infoframe_builder.md R257):
header with VSYNC inactive, header with VSYNC active, low nibbles, high nibbles. -/
def infoWords (p : Params) (vic : Byte) (hsAct vsAct : Bool) : List Word :=
  packSymbols (headerStream p (!vsAct) hsAct) ++ packSymbols (headerStream p vsAct hsAct) ++
    packSymbols (lowStream p vic) ++ packSymbols (highStream p vic)

/-- BUILD_AVI (44_infoframe_builder.md R258): INFO_MEM[0..39], and AVI_VALID <- 1. -/
def execBuildAvi (s : State) : Host.Outcome State Fault Refusal :=
  let r := (sources s).regs
  .next (finish { s with
    infoMem := memPut s.infoMem 0 (infoWords s.params r.vic r.hsAct r.vsAct)
    status := statusAviBuilt s.status })

end Sys2Proof.Machine
end

