-- ==== Sys2Proof/Machine/Framer.lean ====
section
/-! DEFINITION. The Blanking Framer and BUILD_REGION (43_blanking_framer.md). -/

namespace Sys2Proof.Machine

/-- The three channels of a region (43_blanking_framer.md R220). -/
inductive Channel where
  | ch0
  | ch1
  | ch2
  deriving DecidableEq, Repr

/-- The eight segments of a region, in their order (43_blanking_framer.md R222). -/
inductive Segment where
  | fpPad
  | diPre
  | diGbLead
  | body
  | diGbTrail
  | bpPad
  | vPre
  | vGb
  deriving DecidableEq, Repr

/-- The four unpacked streams of INFO_MEM (43_blanking_framer.md R229). -/
structure Streams where
  /-- Stream 0, the header with VSYNC inactive. -/
  header : List Symbol
  /-- Stream 1, the header during vsync. -/
  headerVsync : List Symbol
  /-- Stream 2, body channel 1. -/
  bodyLow : List Symbol
  /-- Stream 3, body channel 2. -/
  bodyHigh : List Symbol
  deriving DecidableEq, Repr

/-- The number c of a channel (10_state.md R44). -/
def channelIndex : Channel → Nat
  | .ch0 => 0
  | .ch1 => 1
  | .ch2 => 2

/-- The segment of position j (43_blanking_framer.md R222, R234). -/
def segmentOf (r : HostRegs) (j : Nat) : Segment :=
  let fp := r.hFp.toNat
  let pu := r.hPulse.toNat
  let l := regionLength r
  if j < fp - 10 then .fpPad
  else if j < fp - 2 then .diPre
  else if j < fp then .diGbLead
  else if j < fp + pu then .body
  else if j < fp + pu + 2 then .diGbTrail
  else if j < l - 10 then .bpPad
  else if j < l - 2 then .vPre
  else .vGb

/-- hs(j): HS_ACT exactly on the sync pulse (43_blanking_framer.md R223). -/
def hsLevel (r : HostRegs) (j : Nat) : Bool :=
  if r.hFp.toNat ≤ j ∧ j < r.hFp.toNat + r.hPulse.toNat then r.hsAct else !r.hsAct

/-- von(kind, j): whether vertical sync is active at position j (43_blanking_framer.md R224). -/
def vsyncOn (r : HostRegs) (kind : RegionKind) (j : Nat) : Bool :=
  match kind with
  | .normal => false
  | .vsEnter => r.hFp.toNat ≤ j
  | .vsActive => true
  | .vsExit => j < r.hFp.toNat

/-- vs(j): VS_ACT where vertical sync is active (43_blanking_framer.md R224). -/
def vsLevel (r : HostRegs) (kind : RegionKind) (j : Nat) : Bool :=
  if vsyncOn r kind j then r.vsAct else !r.vsAct

/-- The body symbol of a data island at position j: symbol s = (j - FP) mod 32 of packet
(j - FP) div 32, the AVI packet for packet 0 and null packets after it
(43_blanking_framer.md R228 to R230). -/
def packetSym (p : Params) (r : HostRegs) (st : Streams) (kind : RegionKind) (c : Channel) (j : Nat) :
    Symbol :=
  let s := (j - r.hFp.toNat) % 32
  if (j - r.hFp.toNat) / 32 = 0 then
    match c with
    | .ch0 => if vsLevel r kind j = r.vsAct then st.headerVsync.getD s 0#10 else st.header.getD s 0#10
    | .ch1 => st.bodyLow.getD s 0#10
    | .ch2 => st.bodyHigh.getD s 0#10
  else
    match c with
    | .ch0 => packetHeaderSym p s false (vsLevel r kind j) (hsLevel r j)
    | .ch1 => terc4Sym p 0#4
    | .ch2 => terc4Sym p 0#4

/-- The symbol of channel 0 outside a data-island body (43_blanking_framer.md R225, R231). -/
def plainSym0 (p : Params) (r : HostRegs) (kind : RegionKind) (j : Nat) : Symbol :=
  let vs := vsLevel r kind j
  let hs := hsLevel r j
  match segmentOf r j with
  | .fpPad => ctrlSym p vs hs
  | .diPre => ctrlSym p vs hs
  | .diGbLead => terc4Sym p (nibble true true vs hs)
  | .body => ctrlSym p vs hs
  | .diGbTrail => terc4Sym p (nibble true true vs hs)
  | .bpPad => ctrlSym p vs hs
  | .vPre => ctrlSym p vs hs
  | .vGb => p.vgb0

/-- The symbol of channel 1 outside a data-island body (43_blanking_framer.md R226, R231). -/
def plainSym1 (p : Params) (seg : Segment) : Symbol :=
  match seg with
  | .fpPad => ctrlSym p false false
  | .diPre => ctrlSym p false true
  | .diGbLead => p.digb
  | .body => ctrlSym p false false
  | .diGbTrail => p.digb
  | .bpPad => ctrlSym p false false
  | .vPre => ctrlSym p false true
  | .vGb => p.vgb1

/-- The symbol of channel 2 outside a data-island body (43_blanking_framer.md R227, R231). -/
def plainSym2 (p : Params) (seg : Segment) : Symbol :=
  match seg with
  | .fpPad => ctrlSym p false false
  | .diPre => ctrlSym p false true
  | .diGbLead => p.digb
  | .body => ctrlSym p false false
  | .diGbTrail => p.digb
  | .bpPad => ctrlSym p false false
  | .vPre => ctrlSym p false false
  | .vGb => p.vgb2

/-- REGION_SYM(kind, di, c, j) (43_blanking_framer.md R234). -/
def regionSym (p : Params) (r : HostRegs) (st : Streams) (kind : RegionKind) (di : Bool) (c : Channel)
    (j : Nat) : Symbol :=
  if segmentOf r j = .body ∧ di = true then packetSym p r st kind c j
  else
    match c with
    | .ch0 => plainSym0 p r kind j
    | .ch1 => plainSym1 p (segmentOf r j)
    | .ch2 => plainSym2 p (segmentOf r j)

/-- The packed words of one channel of a region (43_blanking_framer.md R233). -/
def regionWords (p : Params) (r : HostRegs) (st : Streams) (kind : RegionKind) (di : Bool)
    (c : Channel) : List Word :=
  packSymbols ((List.range (regionLength r)).map (regionSym p r st kind di c))

/-- REGION_MEM with the three channels of one kind stored (43_blanking_framer.md R233). -/
def putRegion (p : Params) (r : HostRegs) (st : Streams) (kind : RegionKind) (di : Bool)
    (m : Memory 32) : Memory 32 :=
  let k := kindIndex kind
  memPut (memPut (memPut m (regionBase k 0) (regionWords p r st kind di .ch0))
    (regionBase k 1) (regionWords p r st kind di .ch1))
    (regionBase k 2) (regionWords p r st kind di .ch2)

/-- stream[t] = UNPACK(INFO_MEM[10 t .. 10 t + 9], 32) of the 40 words of INFO_MEM
(43_blanking_framer.md R229). -/
def streamOf (ws : List Word) (t : Nat) : List Symbol := unpackSymbols ((ws.drop (10 * t)).take 10) 32

/-- The four streams of the 40 words of INFO_MEM (43_blanking_framer.md R229). -/
def streamsOf (ws : List Word) : Streams where
  header := streamOf ws 0
  headerVsync := streamOf ws 1
  bodyLow := streamOf ws 2
  bodyHigh := streamOf ws 3

/-- No streams: what a region without a data island uses (43_blanking_framer.md R231). -/
def noStreams : Streams where
  header := []
  headerVsync := []
  bodyLow := []
  bodyHigh := []

/-- The checks of BUILD_REGION in their order, the first that fails (43_blanking_framer.md R221, R232,
R236). -/
def regionError (r : HostRegs) (aviValid di : Bool) : Option ErrCode :=
  if timingValid r = false then some .timing
  else if di = false then none
  else if regionLength r % 16 ≠ 0 then some .diLength
  else if r.hPulse.toNat < 32 then some .diPulse
  else if aviValid = false then some .aviNotBuilt
  else none

/-- The successful end of BUILD_REGION (43_blanking_framer.md R233, R234). -/
def storeRegion (st : Streams) (kind : RegionKind) (di : Bool) (s : State) : State :=
  finish { s with
    regionMem := putRegion s.params (sources s).regs st kind di s.regionMem
    status := statusRegionBuilt (kindIndex kind) di s.status }

/-- BUILD_REGION kind, di (43_blanking_framer.md R234). -/
def execBuildRegion (kind : RegionKind) (di : Bool) (s : State) : Host.Outcome State Fault Refusal :=
  match regionError (sources s).regs (sources s).aviValid di with
  | some code => .next (invalidInput code s)
  | none =>
    if di then
      match memGetRange .infoMem (sources s).infoMem 0 40 with
      | .error e => .next (recordFault (.uninitRead e) s)
      | .ok ws => .next (storeRegion (streamsOf ws) kind di s)
    else .next (storeRegion noStreams kind di s)

end Sys2Proof.Machine
end

