-- ==== Sys2Proof/Machine/Encoder.lean ====
section
/-! DEFINITION. The Symbol Encoder TMDS(v, d) and the ENC command (40_symbol_encoder.md). -/

namespace Sys2Proof.Machine

/-- The transform choice: XNOR when ones > 4, or ones = 4 and v[0] = 0 (40_symbol_encoder.md R151). -/
def useXnor (v : Byte) : Bool :=
  4 < popcount v || (popcount v == 4 && !v.getLsbD 0)

/-- Bit i of the code word: the serial chain, seeded by v[0] (40_symbol_encoder.md R152). -/
def chainBit (v : Byte) : Nat → Bool
  | 0 => v.getLsbD 0
  | i + 1 =>
    if useXnor v then !(chainBit v i ^^ v.getLsbD (i + 1)) else chainBit v i ^^ v.getLsbD (i + 1)

/-- The code word q[7:0] (40_symbol_encoder.md R152). -/
def codeWord (v : Byte) : Byte :=
  BitVec.ofBool (chainBit v 7) ++ BitVec.ofBool (chainBit v 6) ++ BitVec.ofBool (chainBit v 5) ++
    BitVec.ofBool (chainBit v 4) ++ BitVec.ofBool (chainBit v 3) ++ BitVec.ofBool (chainBit v 2) ++
    BitVec.ofBool (chainBit v 1) ++ BitVec.ofBool (chainBit v 0)

/-- q[8]: 1 when the XOR chain was used (40_symbol_encoder.md R153). -/
def markerBit (v : Byte) : Bool := !useXnor v

/-- n1, the ones of the code word, as an integer (40_symbol_encoder.md R154). -/
def onesOf (v : Byte) : Int := popcount (codeWord v)

/-- n0 = 8 - n1 (40_symbol_encoder.md R154). -/
def zerosOf (v : Byte) : Int := 8 - onesOf v

/-- {b9, b8, q}, a symbol from its two flag bits and its low 8 bits (30_encoding.md R100). -/
def mkSymbol (b9 b8 : Bool) (q : Byte) : Symbol := BitVec.ofBool b9 ++ BitVec.ofBool b8 ++ q

/-- TMDS(v, d): the symbol and the new disparity (40_symbol_encoder.md R158).  Case A is R155, case B
R156, case C R157. -/
def tmds (v : Byte) (d : Int) : Symbol × Int :=
  let q := codeWord v
  let q8 := markerBit v
  let n1 := onesOf v
  let n0 := zerosOf v
  if d = 0 ∨ n1 = n0 then
    if q8 then (mkSymbol false true q, d + (n1 - n0))
    else (mkSymbol true false (~~~q), d + (n0 - n1))
  else if (0 < d ∧ n0 < n1) ∨ (d < 0 ∧ n1 < n0) then
    (mkSymbol true q8 (~~~q), d + (if q8 then 2 else 0) + (n0 - n1))
  else
    (mkSymbol false q8 q, d - (if q8 then 0 else 2) + (n1 - n0))

/-- ENC (40_symbol_encoder.md R165): DISP_IN outside -8..+8 is InvalidInput(DISP_RANGE); otherwise
ENC_OUT takes the symbol and the new disparity. -/
def execEnc (s : State) : Host.Outcome State Fault Refusal :=
  let v := encValue (sources s).regs.encIn
  let d := encDispIn (sources s).regs.encIn
  if d < -8 ∨ 8 < d then .next (invalidInput .dispRange s)
  else .next (finish { s with encSymbol := (tmds v d).1, encDispOut := twos5 (tmds v d).2 })

end Sys2Proof.Machine
end

