-- ==== Sys2Proof/Machine/Lut.lean ====
section
/-! DEFINITION. The LUT Builder and BUILD_LUT (41_lut_builder.md). -/

namespace Sys2Proof.Machine

/-- DEPTH5TO8(c) (41_lut_builder.md R180). -/
def depth5to8Of (p : Params) (c : BitVec 5) : Byte := p.depth5to8[c.toNat]'c.isLt

/-- The value an entry encodes: DEPTH5TO8(c), its bit 0 flipped where it is 0x00 or 0xFF
(41_lut_builder.md R181). -/
def lutValue (p : Params) (c : BitVec 5) : Byte :=
  let v := depth5to8Of p c
  if v = 0x00#8 ∨ v = 0xFF#8 then v ^^^ 0x01#8 else v

/-- The disparity bucket b stands for, 2 b - 8 (41_lut_builder.md R182). -/
def bucketDisparity (b : Nat) : Int := 2 * b - 8

/-- Three encodes of v from disparity d, threading it forward: sym0, sym1, sym2 and d3
(41_lut_builder.md R183). -/
def tripleEncode (v : Byte) (d : Int) : Symbol × Symbol × Symbol × Int :=
  let e0 := tmds v d
  let e1 := tmds v e0.2
  let e2 := tmds v e1.2
  (e0.1, e1.1, e2.1, e2.2)

/-- The two words of an entry: the three packed symbols, and bucket_out << 6 (30_encoding.md R106;
41_lut_builder.md R183, R184). -/
def lutEntry (v : Byte) (d : Int) : List Word :=
  let t := tripleEncode v d
  [ t.1.setWidth 32 ||| (t.2.1.setWidth 32 <<< 10) ||| (t.2.2.1.setWidth 32 <<< 20),
    BitVec.ofInt 32 ((t.2.2.2 + 8) / 2) <<< 6 ]

/-- The two words of slot b for colour c: an entry for b in 0..8, zero for b in 9..15
(41_lut_builder.md R184, R185). -/
def lutSlot (p : Params) (b c : Nat) : List Word :=
  if b ≤ 8 then lutEntry (lutValue p (BitVec.ofNat 5 c)) (bucketDisparity b) else [0#32, 0#32]

/-- The whole table, words 0 to 1023: slot b, colour c has its words at (c << 1) | (b << 6) and the
index after it (30_encoding.md R107; 41_lut_builder.md R187). -/
def lutWords (p : Params) : List Word :=
  (List.range 16).flatMap fun b => (List.range 32).flatMap fun c => lutSlot p b c

/-- BUILD_LUT (41_lut_builder.md R187): all 1024 words of LUT_MEM, and LUT_VALID <- 1. -/
def execBuildLut (s : State) : Host.Outcome State Fault Refusal :=
  .next (finish { s with
    lutMem := memPut s.lutMem 0 (lutWords s.params)
    status := statusLutBuilt s.status })

end Sys2Proof.Machine
end

