-- ==== Sys2Proof/Machine/Dispatch.lean ====
section
/-! DEFINITION. execute(cmd, snapshot) of 45_command_control.md R271: one arm per command, each one
call of its meaning. -/

namespace Sys2Proof.Machine

open Sys2Proof

def exec (i : Instr) (s : State) : Host.Outcome State Fault Refusal :=
  match i with
  | .nop => Sys2Proof.Machine.execNop s
  | .enc => Sys2Proof.Machine.execEnc s
  | .buildLut => Sys2Proof.Machine.execBuildLut s
  | .buildAvi => Sys2Proof.Machine.execBuildAvi s
  | .buildRegion kind di => Sys2Proof.Machine.execBuildRegion kind di s
  | .pack count => Sys2Proof.Machine.execPack count s
  | .unpack count => Sys2Proof.Machine.execUnpack count s
  | .reserved7 => Sys2Proof.Machine.execReserved7 s
  | .reserved8F op => Sys2Proof.Machine.execReserved8F op s

end Sys2Proof.Machine
end

