-- ==== Sys2Proof/Machine/HostPort.lean ====
section
/-! DEFINITION. The host port: the address map, reads and writes with their side effects and faults
(20_memory.md R70 to R79; 60_exceptions.md R305, R306, R312). -/

namespace Sys2Proof.Machine

/-- The registers of 10_state.md R32. -/
inductive Reg where
  | cmd
  | status
  | encIn
  | encOut
  | hActive
  | hFp
  | hPulse
  | hBp
  | hTotal
  | syncCfg
  | vic
  deriving DecidableEq, Repr

/-- A mapped location of the host port (20_memory.md R72). -/
inductive Loc where
  | reg (r : Reg)
  /-- TERC4_ROM[i]. -/
  | terc4Rom (i : Nat)
  /-- CTRL_ROM[i]. -/
  | ctrlRom (i : Nat)
  /-- GB_ROM[i]. -/
  | gbRom (i : Nat)
  /-- LUT_MEM[i]. -/
  | lutMem (i : Nat)
  /-- INFO_MEM[i]. -/
  | infoMem (i : Nat)
  /-- REGION_MEM[k][c][w]. -/
  | regionMem (k c w : Nat)
  /-- PACK_IN[i]. -/
  | packIn (i : Nat)
  /-- PACK_OUT[i]. -/
  | packOut (i : Nat)
  deriving DecidableEq, Repr

/-- The register at index offset / 4 (10_state.md R32). -/
def regAt : Nat → Option Reg
  | 0 => some .cmd
  | 1 => some .status
  | 2 => some .encIn
  | 3 => some .encOut
  | 4 => some .hActive
  | 5 => some .hFp
  | 6 => some .hPulse
  | 7 => some .hBp
  | 8 => some .hTotal
  | 9 => some .syncCfg
  | 10 => some .vic
  | _ => none

/-- The location at byte address a, `none` where the map has none (20_memory.md R72). -/
def locate (a : Nat) : Option Loc :=
  if a ≤ 0x002B then (regAt (a / 4)).map .reg
  else if 0x0100 ≤ a ∧ a ≤ 0x013F then some (.terc4Rom ((a - 0x0100) / 4))
  else if 0x0140 ≤ a ∧ a ≤ 0x014F then some (.ctrlRom ((a - 0x0140) / 4))
  else if 0x0150 ≤ a ∧ a ≤ 0x015F then some (.gbRom ((a - 0x0150) / 4))
  else if 0x1000 ≤ a ∧ a ≤ 0x1FFF then some (.lutMem ((a - 0x1000) / 4))
  else if 0x2000 ≤ a ∧ a ≤ 0x209F then some (.infoMem ((a - 0x2000) / 4))
  else if 0x4000 ≤ a ∧ a ≤ 0x6FFF then
    some (.regionMem ((a - 0x4000) / 0x400 / 3) ((a - 0x4000) / 0x400 % 3)
      ((a - 0x4000) % 0x400 / 4))
  else if 0x8000 ≤ a ∧ a ≤ 0x8FFF then some (.packIn ((a - 0x8000) / 4))
  else if 0x9000 ≤ a ∧ a ≤ 0x94FF then some (.packOut ((a - 0x9000) / 4))
  else none

/-- The location a legal access reaches: 32 bits wide, at a multiple of 4, mapped (20_memory.md R71). -/
def legalAccess (width : Width) (a : Addr) : Option Loc :=
  if width = .word ∧ a.toNat % 4 = 0 then locate a.toNat else none

/-- The value of a register read (10_state.md R32 to R39).  CMD reads 0. -/
def readReg (s : State) : Reg → Word
  | .cmd => 0#32
  | .status => statusWord s.status
  | .encIn => s.regs.encIn.setWidth 32
  | .encOut => encOutWord s.encSymbol s.encDispOut
  | .hActive => s.regs.hActive.setWidth 32
  | .hFp => s.regs.hFp.setWidth 32
  | .hPulse => s.regs.hPulse.setWidth 32
  | .hBp => s.regs.hBp.setWidth 32
  | .hTotal => s.regs.hTotal.setWidth 32
  | .syncCfg => syncCfgWord s.regs.hsAct s.regs.vsAct
  | .vic => s.regs.vic.setWidth 32

/-- GB_ROM: VGB0, VGB1, VGB2, DIGB (10_state.md R47). -/
def gbRomEntry (p : Params) (i : Nat) : Symbol := [p.vgb0, p.vgb1, p.vgb2, p.digb].getD i 0#10

/-- The value of a memory element, zero-extended, or the element itself where nothing has written it
since reset (10_state.md R45; 60_exceptions.md R312). -/
def readElement {w : Nat} (e : Element) (v : Option (BitVec w)) : Except Element Word :=
  match v with
  | none => .error e
  | some x => .ok (x.setWidth 32)

/-- The value of a location (20_memory.md R72), or the unwritten element it is. -/
def readLoc (s : State) : Loc → Except Element Word
  | .reg r => .ok (readReg s r)
  | .terc4Rom i => .ok ((s.params.terc4Table.toList.getD i 0#10).setWidth 32)
  | .ctrlRom i => .ok ((s.params.ctrlTable.toList.getD i 0#10).setWidth 32)
  | .gbRom i => .ok ((gbRomEntry s.params i).setWidth 32)
  | .lutMem i => readElement (.lutMem i) (memGet s.lutMem i)
  | .infoMem i => readElement (.infoMem i) (memGet s.infoMem i)
  | .regionMem k c w => readElement (.regionMem k c w) (memGet s.regionMem (regionBase k c + w))
  | .packIn i => readElement (.packIn i) (memGet s.packIn i)
  | .packOut i => readElement (.packOut i) (memGet s.packOut i)

/-- Whether a location belongs to a command's destination memory (20_memory.md R79;
45_command_control.md R271, R275): the whole memory, for BUILD_REGION the memory of its kind, for ENC
the register ENC_OUT (assumption log 6). -/
def isDestination (i : Instr) (loc : Loc) : Bool :=
  match i, loc with
  | .enc, .reg .encOut => true
  | .buildLut, .lutMem _ => true
  | .buildAvi, .infoMem _ => true
  | .buildRegion kind _, .regionMem k _ _ => k == kindIndex kind
  | .pack _, .packOut _ => true
  | .unpack _, .packIn _ => true
  | _, _ => false

/-- Whether a read of a location that holds a value is a free draw: BUSY = 1 and the pending command's
destination (20_memory.md R79). -/
def drawsFree (s : State) (loc : Loc) : Bool :=
  s.status.busy &&
    match fetchCommand s with
    | none => false
    | some i => isDestination i loc

/-- A drawn word cut to the bits the location holds (93_implementation_defined.md X25: a free draw of
the location's width). -/
def drawnWord (loc : Loc) (v : Word) : Word :=
  match loc with
  | .reg .encOut => encOutWord (v.extractLsb' 0 10) (v.extractLsb' 16 5)
  | .packIn _ => (low10 v).setWidth 32
  | _ => v

/-- The port answers the word v (20_memory.md R75: no other effect). -/
def answer (v : Word) (s : State) : State := { s with reply := some v }

/-- The port answers a free draw (20_memory.md R79). -/
def answerDrawn (loc : Loc) (s : State) : State :=
  { s with reply := some (drawnWord loc (Config.freeDraw s.draws)), draws := s.draws + 1 }

/-- A legal host read of a location (20_memory.md R75, R79; 60_exceptions.md R312).  An element nothing
has written since reset faults at any time, the pending command's destination among them (R312;
90_conflicts.md C16); the free draw is for the elements that hold a value. -/
def hostReadLoc (loc : Loc) (s : State) : State :=
  match readLoc s loc with
  | .error e => recordFault (.uninitRead e) s
  | .ok v => if drawsFree s loc then answerDrawn loc s else answer v s

/-- MemRead(a, width) (20_memory.md R70, R71). -/
def hostRead (width : Width) (a : Addr) (s : State) : State :=
  match legalAccess width a with
  | none => recordFault (.busError a) s
  | some loc => hostReadLoc loc s

/-- The state after a write the BUSY contract guards: the fault while BUSY = 1, with no other effect,
else the write (60_exceptions.md R306). -/
def guardBusy (reason : ContractReason) (s written : State) : State :=
  if s.status.busy then recordFault (.hostContract reason) s else written

/-- A write to a timing register (10_state.md R37, R41). -/
def writeTiming (r : HostRegs) (s : State) : State :=
  { s with regs := r, status := statusTimingWritten s.status }

/-- A write to VIC or SYNC_CFG (10_state.md R38, R39, R41). -/
def writePacketReg (r : HostRegs) (s : State) : State :=
  { s with regs := r, status := statusPacketWritten s.status }

/-- A host write to a register (10_state.md R32 to R41; 60_exceptions.md R306).  STATUS and ENC_OUT
are read-only: the write changes nothing (20_memory.md R76). -/
def writeReg (r : Reg) (v : Word) (s : State) : State :=
  match r with
  | .cmd => guardBusy .cmdWhileBusy s (issueCommand v s)
  | .status => s
  | .encIn => guardBusy .configWhileBusy s { s with regs := { s.regs with encIn := low13 v } }
  | .encOut => s
  | .hActive =>
    guardBusy .configWhileBusy s (writeTiming { s.regs with hActive := low16 v } s)
  | .hFp => guardBusy .configWhileBusy s (writeTiming { s.regs with hFp := low16 v } s)
  | .hPulse =>
    guardBusy .configWhileBusy s (writeTiming { s.regs with hPulse := low16 v } s)
  | .hBp => guardBusy .configWhileBusy s (writeTiming { s.regs with hBp := low16 v } s)
  | .hTotal =>
    guardBusy .configWhileBusy s (writeTiming { s.regs with hTotal := low16 v } s)
  | .syncCfg =>
    guardBusy .configWhileBusy s
      (writePacketReg { s.regs with hsAct := v.getLsbD 0, vsAct := v.getLsbD 1 } s)
  | .vic => guardBusy .configWhileBusy s (writePacketReg { s.regs with vic := low8 v } s)

/-- A legal host write to a location (20_memory.md R75, R76; 60_exceptions.md R306). -/
def hostWriteLoc (loc : Loc) (v : Word) (s : State) : State :=
  match loc with
  | .reg r => writeReg r v s
  | .terc4Rom _ => s
  | .ctrlRom _ => s
  | .gbRom _ => s
  | .lutMem _ => s
  | .infoMem _ => s
  | .regionMem _ _ _ => s
  | .packIn i =>
    guardBusy .bufferWhileBusy s { s with packIn := memPut s.packIn i [low10 v] }
  | .packOut i => guardBusy .bufferWhileBusy s { s with packOut := memPut s.packOut i [v] }

/-- MemWrite(a, width, v) (20_memory.md R70, R71). -/
def hostWrite (width : Width) (a : Addr) (v : Word) (s : State) : State :=
  match legalAccess width a with
  | none => recordFault (.busError a) s
  | some loc => hostWriteLoc loc v s

/-- One host access (20_memory.md R78). -/
def hostAccess (op : HostOp) (s : State) : State :=
  match op with
  | .read width a => hostRead width a s
  | .write width a v => hostWrite width a v s

/-- The state in which the command word w is pending, just issued, with no fault recorded and the
core's turn next: what lets the very next step run it (45_command_control.md R270, R277;
assumption log 3). -/
def placeCommand (w : Word) (s : State) : State :=
  { issueCommand w s with inbox := .core :: s.inbox, fault := none }

end Sys2Proof.Machine
end

