-- ==== Sys2Proof/Machine/Engine.lean ====
section
/-! DEFINITION. Who moves next and what the move does (45_command_control.md R271, R277). -/

namespace Sys2Proof.Machine

/-- The core's turn (45_command_control.md R271, R277): the pending command completes; with none
pending the completion step is not enabled and nothing happens. -/
def coreTurn (s : State) : Host.Outcome State Fault Refusal :=
  match fetchCommand s with
  | none => .next s
  | some i => exec i s

/-- The move the inbox calls for (45_command_control.md R277): a host access, a reset input
(70_reset_and_hazards.md R343) or the core's turn, which it also is when the inbox is empty
(assumption log 1, 2). -/
def takeMove (s : State) : Host.Outcome State Fault Refusal :=
  match s.inbox with
  | [] => coreTurn s
  | .core :: rest => coreTurn { s with inbox := rest }
  | .host op :: rest => .next (hostAccess op { s with inbox := rest })
  | .reset :: rest => .next (resetCore { s with inbox := rest })

/-- A step of the run: after a recorded fault no further step is taken, and the step answers the
fault (45_command_control.md R277; assumption log 7). -/
def runStep (s : State) : Host.Outcome State Fault Refusal :=
  match s.fault with
  | some f => .fault f
  | none => takeMove s

end Sys2Proof.Machine
end

