-- ==== Sys2Proof/Machine/Step.lean ====
section
/-! DEFINITION. The step of the machine (45_command_control.md R277), and the state whose next step
runs a given command word. -/

namespace Sys2Proof.Machine

/-- One step (45_command_control.md R277). -/
def step (s : State) : Host.Outcome State Fault Refusal := runStep s

/-- The state whose next step runs the command of the given bits: the host has written them to CMD
(45_command_control.md R270) and it is the core's turn (assumption log 3). -/
def State.withFetchWord (s : State) (nbits w : Nat) : State :=
  placeCommand (BitVec.ofNat 32 (w % 2 ^ nbits)) s

end Sys2Proof.Machine
end

