-- ==== Sys2Proof/Safety.lean ====
section
/-! DEFINITION. The terms claims about the core use: the invariants of its state and the tables the
validity bits promise. -/

namespace Sys2Proof.Machine

/-- Every memory has its canonical form: indexes strictly rising, below its size
(10_state.md R42 to R46). -/
abbrev State.memWf (s : State) : Prop :=
  Memory.wf 1024 s.lutMem ∧ Memory.wf 40 s.infoMem ∧ Memory.wf 3072 s.regionMem ∧
    Memory.wf 1024 s.packIn ∧ Memory.wf 320 s.packOut

/-- STATUS agrees with the pending command and with itself: BUSY = 1 exactly when a command is pending
(10_state.md R48), ERR = 1 exactly when ERRCODE is not 0 (R34), codes 8 to 15 are never there
(60_exceptions.md R311; 93_implementation_defined.md X32), and no error stands while a command is
pending (45_command_control.md R270). -/
abbrev State.statusWf (s : State) : Prop :=
  s.status.busy = s.pending.isSome ∧ s.status.err = (s.status.errCode != 0) ∧
    s.status.errCode.toNat ≤ 7 ∧ (s.pending.isSome = true → s.status.errCode = 0)

/-- The snapshot of a pending command is still what its sources hold (10_state.md R40;
60_exceptions.md R306). -/
def State.snapshotCurrent (s : State) : Prop :=
  ∀ p, s.pending = some p → p.snap = takeSnapshot s

/-- The four streams a BUILD_AVI with the given registers stores (44_infoframe_builder.md R255,
R256). -/
def aviStreams (p : Params) (r : HostRegs) : Streams where
  header := headerStream p (!r.vsAct) r.hsAct
  headerVsync := headerStream p r.vsAct r.hsAct
  bodyLow := lowStream p r.vic
  bodyHigh := highStream p r.vic

/-- The streams a region built with the given registers holds, with or without a data island. -/
def regionStreams (p : Params) (r : HostRegs) (di : Bool) : Streams :=
  if di then aviStreams p r else noStreams

/-- LUT_VALID = 1 means LUT_MEM holds the table of BUILD_LUT (41_lut_builder.md R187). -/
def State.lutCurrent (s : State) : Prop :=
  s.status.lutValid = true → s.lutMem = cellsFrom 0 (lutWords s.params)

/-- AVI_VALID = 1 means INFO_MEM holds the streams of the current VIC and SYNC_CFG
(44_infoframe_builder.md R258; 10_state.md R41). -/
def State.aviCurrent (s : State) : Prop :=
  s.status.aviValid = true →
    s.infoMem = cellsFrom 0 (infoWords s.params s.regs.vic s.regs.hsAct s.regs.vsAct)

/-- REGION_VALID[k] = 1 means that the timing registers still pass the checks of a region with the data
island REGION_DI[k] says, and that REGION_MEM[k] holds, on each channel, the region the current
registers give, whose AVI packet is that of the current VIC and SYNC_CFG
(70_reset_and_hazards.md R347). -/
def State.regionsCurrent (s : State) : Prop :=
  ∀ (kind : RegionKind), regionBit s.status.regionValid (kindIndex kind) = true →
    regionError s.regs true (regionBit s.status.regionDi (kindIndex kind)) = none ∧
      ∀ (c : Channel) (w : Nat) (word : Word),
        (regionWords s.params s.regs
          (regionStreams s.params s.regs (regionBit s.status.regionDi (kindIndex kind)))
          kind (regionBit s.status.regionDi (kindIndex kind)) c)[w]? = some word →
        memGet s.regionMem (regionBase (kindIndex kind) (channelIndex c) + w) = some word

/-- The invariant of the core: the memories' form, STATUS, the snapshot, and the tables the validity
bits promise. -/
def State.Inv (s : State) : Prop :=
  s.memWf ∧ s.statusWf ∧ s.snapshotCurrent ∧ s.lutCurrent ∧ s.aviCurrent ∧ s.regionsCurrent

/-- The memory element a location is, for the locations UninitRead can name (60_exceptions.md R312). -/
def elementOf : Loc → Option Element
  | .lutMem i => some (.lutMem i)
  | .infoMem i => some (.infoMem i)
  | .regionMem k c w => some (.regionMem k c w)
  | .packIn i => some (.packIn i)
  | .packOut i => some (.packOut i)
  | .reg _ => none
  | .terc4Rom _ => none
  | .ctrlRom _ => none
  | .gbRom _ => none

/-- The issue and completion of one command, with nothing between (45_command_control.md R270, R271). -/
def runCommand (i : Instr) (s : State) : Host.Outcome State Fault Refusal :=
  exec i (issueCommand (encode i) s)

/-- Whether vertical sync is active in the body of a region kind (43_blanking_framer.md R224: kinds 1
and 2). -/
def bodyVsync : RegionKind → Bool
  | .normal => false
  | .vsEnter => true
  | .vsActive => true
  | .vsExit => false

/-- The addresses of the host port with no location (20_memory.md R72). -/
def unmappedAddr (n : Nat) : Prop :=
  (0x002C ≤ n ∧ n ≤ 0x00FF) ∨ (0x0160 ≤ n ∧ n ≤ 0x0FFF) ∨ (0x20A0 ≤ n ∧ n ≤ 0x3FFF) ∨
    (0x7000 ≤ n ∧ n ≤ 0x7FFF) ∨ 0x9500 ≤ n

/-- Whether the step of a state is a reset input (70_reset_and_hazards.md R343). -/
def resetNext (s : State) : Bool := s.inbox.head? == some .reset

end Sys2Proof.Machine
end

