-- ==== Sys2Proof/Certificates/Slice0/Obligations.lean ====
section
/-! DEFINITION. The statements about the TMDS encoder core, each with the rule of spec/ it formalises.
Every statement holds for every value of the parameters (00_scope.md R3) unless it names
`defaultParams`, and for every value of the free draws. -/

open Sys2Proof Sys2Proof.Machine

/-! ## Encodings (30_encoding.md) -/

/-- The words 30_encoding.md R114 writes for the commands, and words with reserved or unused bits set
(R111, R112; 95_test_vectors.md L2.6, L3), decode to those commands. -/
def Obligations.OpcodeWordsDecode : Prop :=
  decodeWord 0x00000000#32 = .nop ∧ decodeWord 0xFFFF0080#32 = .nop ∧
  decodeWord 0x00000001#32 = .enc ∧ decodeWord 0x00000081#32 = .enc ∧
  decodeWord 0x00000002#32 = .buildLut ∧ decodeWord 0x00000003#32 = .buildAvi ∧
  decodeWord 0x00000004#32 = .buildRegion .normal false ∧
  decodeWord 0x00000054#32 = .buildRegion .vsEnter true ∧
  decodeWord 0x00000064#32 = .buildRegion .vsActive true ∧
  decodeWord 0x00000034#32 = .buildRegion .vsExit false ∧
  decodeWord 0x00100005#32 = .pack 16#16 ∧ decodeWord 0x04010005#32 = .pack 1025#16 ∧
  decodeWord 0x00100006#32 = .unpack 16#16 ∧
  decodeWord 0x00000007#32 = .reserved7 ∧ decodeWord 0x0000000F#32 = .reserved8F 0xF#4

/-- OP alone chooses the row (30_encoding.md R113), and each row takes its fields from the bits R111
gives them. -/
def Obligations.RowsChosenByOp : Prop :=
  ∀ w : Word,
    (cmdOp w = 0x0#4 ↔ decodeWord w = .nop) ∧ (cmdOp w = 0x1#4 ↔ decodeWord w = .enc) ∧
    (cmdOp w = 0x2#4 ↔ decodeWord w = .buildLut) ∧ (cmdOp w = 0x3#4 ↔ decodeWord w = .buildAvi) ∧
    (cmdOp w = 0x4#4 ↔
      decodeWord w = .buildRegion (regionKindOfBits (w.extractLsb' 4 2)) (w.getLsbD 6)) ∧
    (cmdOp w = 0x5#4 ↔ decodeWord w = .pack (w.extractLsb' 16 16)) ∧
    (cmdOp w = 0x6#4 ↔ decodeWord w = .unpack (w.extractLsb' 16 16)) ∧
    (cmdOp w = 0x7#4 ↔ decodeWord w = .reserved7) ∧
    (8 ≤ (cmdOp w).toNat ↔ decodeWord w = .reserved8F (w.extractLsb' 0 4))

/-- Decode and encode agree: the word of every well-formed command decodes to it, with every field at
every value (30_encoding.md R111, R114). -/
def Obligations.DecodeEncodeRoundTrip : Prop :=
  ∀ i : Instr, i.wellFormed = true → decodeWord (encode i) = i

/-- Every word decodes to a well-formed command (30_encoding.md R111, R112), whose own word is the given
one with bits 15:7 and the fields the command does not use cleared.  That a command is written with 0
in those fields is section 6 (R114) for its mnemonics, and for the reserved rows, which R114 does not
write, the model's choice (assumption log 15). -/
def Obligations.EncodeClearsIgnoredFields : Prop :=
  ∀ w : Word, (decodeWord w).wellFormed = true ∧
    encode (decodeWord w) = w &&&
      (if cmdOp w = 0x4#4 then 0x0000007F#32
       else if cmdOp w = 0x5#4 ∨ cmdOp w = 0x6#4 then 0xFFFF000F#32
       else 0x0000000F#32)

/-- STATUS as the host reads it has each field of 10_state.md R34 in its bits, and 0 above. -/
def Obligations.StatusWordLayout : Prop :=
  ∀ st : Status,
    (statusWord st).getLsbD 0 = st.busy ∧ (statusWord st).getLsbD 1 = st.err ∧
    (statusWord st).getLsbD 2 = st.aviValid ∧ (statusWord st).getLsbD 3 = st.lutValid ∧
    (statusWord st).extractLsb' 4 4 = st.errCode ∧
    (∀ k < 4, (statusWord st).getLsbD (8 + k) = regionBit st.regionValid k ∧
      (statusWord st).getLsbD (12 + k) = regionBit st.regionDi k) ∧
    (statusWord st).extractLsb' 16 16 = 0#16

/-! ## Steps and reset (45_command_control.md, 70_reset_and_hazards.md) -/

/-- The core's turn completes the pending command, decoded (45_command_control.md R271, R277).  That the
turns stand in a list of inputs (assumption log 1), that an empty inbox is the core's turn (log 2),
and that a placed command word is run by the very next step (log 3), is the model's choice. -/
def Obligations.StepRunsPendingCommand : Prop :=
  (∀ (s : State) (p : Pending), s.fault = none → s.pending = some p →
    (s.inbox = [] ∨ ∃ rest, s.inbox = Event.core :: rest) →
    step s = exec (decodeWord p.word) { s with inbox := s.inbox.tail }) ∧
  ∀ (s : State) (w : Word), step (s.withFetchWord 32 w.toNat) =
    exec (decodeWord w) (issueCommand w { s with fault := none })

/-- The other moves (45_command_control.md R277): a recorded fault stops the run; otherwise the next
input is a host access or a reset, or a core's turn with nothing pending, which changes nothing.  That
the inputs stand in a list, and what a core's turn with nothing pending does, is the model's choice
(assumption log 1, 2, 7, 11). -/
def Obligations.StepFollowsInbox : Prop :=
  ∀ s : State,
    (∀ f, s.fault = some f → step s = .fault f) ∧
    (s.fault = none →
      (∀ op rest, s.inbox = .host op :: rest →
        step s = .next (hostAccess op { s with inbox := rest })) ∧
      (∀ rest, s.inbox = .reset :: rest → step s = .next (resetCore { s with inbox := rest })) ∧
      (s.pending = none → s.inbox = [] → step s = .next s) ∧
      (∀ rest, s.pending = none → s.inbox = .core :: rest →
        step s = .next { s with inbox := rest }))

/-- The reset state (70_reset_and_hazards.md R340), from power-up and from the reset input: STATUS and
every register read 0, no command is pending and no fault is recorded. -/
def Obligations.ResetState : Prop :=
  ∀ s t : State, t = State.reset ∨ t = resetCore s →
    statusWord t.status = 0x00000000#32 ∧ t.status.busy = false ∧ t.status.err = false ∧
    t.status.errCode = 0 ∧ t.status.aviValid = false ∧ t.status.lutValid = false ∧
    t.status.regionValid = 0 ∧ t.status.regionDi = 0 ∧
    (∀ r : Reg, readReg t r = 0x00000000#32) ∧ t.pending = none ∧ t.fault = none

/-- After reset every memory element is unwritten, and reading it records UninitRead of that element
and does nothing else (70_reset_and_hazards.md R341; 60_exceptions.md R312). -/
def Obligations.ResetLeavesMemoriesUnwritten : Prop :=
  ∀ (s t : State) (a : Addr) (loc : Loc) (e : Element), t = State.reset ∨ t = resetCore s →
    legalAccess .word a = some loc → elementOf loc = some e →
    hostRead .word a t = { t with fault := some (.uninitRead e) }

/-- A written element stays written until the next reset (70_reset_and_hazards.md R341). -/
def Obligations.WrittenElementsStayWritten : Prop :=
  ∀ s t : State, step s = .next t → resetNext s = false → ∀ i : Nat,
    (memGet s.lutMem i ≠ none → memGet t.lutMem i ≠ none) ∧
    (memGet s.infoMem i ≠ none → memGet t.infoMem i ≠ none) ∧
    (memGet s.regionMem i ≠ none → memGet t.regionMem i ≠ none) ∧
    (memGet s.packIn i ≠ none → memGet t.packIn i ≠ none) ∧
    (memGet s.packOut i ≠ none → memGet t.packOut i ≠ none)

/-! ## Symbol Encoder (40_symbol_encoder.md) -/

/-- The transform: the choice of chain (R151), the serial chain (R152), the marker (R153) and the
counts of the code word (R154). -/
def Obligations.EncoderTransform : Prop :=
  ∀ v : Byte,
    (markerBit v = false ↔ 4 < popcount v ∨ (popcount v = 4 ∧ v.getLsbD 0 = false)) ∧
    (codeWord v).getLsbD 0 = v.getLsbD 0 ∧
    (∀ i < 7, (codeWord v).getLsbD (i + 1) =
      if markerBit v then (codeWord v).getLsbD i ^^ v.getLsbD (i + 1)
      else !((codeWord v).getLsbD i ^^ v.getLsbD (i + 1))) ∧
    onesOf v = popcount (codeWord v) ∧ zerosOf v = 8 - onesOf v

/-- The three balance cases (R155, R156, R157), with q[8] as 1 or 0. -/
def Obligations.EncoderBalanceCases : Prop :=
  ∀ (v : Byte) (d q8 : Int), q8 = (if markerBit v then 1 else 0) →
    (d = 0 ∨ onesOf v = zerosOf v →
      (markerBit v = true →
        tmds v d = (mkSymbol false true (codeWord v), d + (onesOf v - zerosOf v))) ∧
      (markerBit v = false →
        tmds v d = (mkSymbol true false (~~~codeWord v), d + (zerosOf v - onesOf v)))) ∧
    (¬(d = 0 ∨ onesOf v = zerosOf v) →
      ((0 < d ∧ zerosOf v < onesOf v) ∨ (d < 0 ∧ onesOf v < zerosOf v) →
        tmds v d = (mkSymbol true (markerBit v) (~~~codeWord v),
          d + 2 * q8 + (zerosOf v - onesOf v))) ∧
      (¬((0 < d ∧ zerosOf v < onesOf v) ∨ (d < 0 ∧ onesOf v < zerosOf v)) →
        tmds v d = (mkSymbol false (markerBit v) (codeWord v),
          d - 2 * (1 - q8) + (onesOf v - zerosOf v))))

/-- Disparity is the exact running count of the symbol's bits, for every integer disparity, and keeps
its parity (R159). -/
def Obligations.EncoderDisparityExact : Prop :=
  ∀ (v : Byte) (d : Int),
    (tmds v d).2 - d = 2 * (popcount (tmds v d).1 : Int) - 10 ∧ (tmds v d).2 % 2 = d % 2

/-- The bound (R160): even disparities stay even and within 8, exactly the nine even values are
reached from 0, each after one symbol; odd ones stay odd and within 9, and both extremes are
reached. -/
def Obligations.EncoderBound : Prop :=
  (∀ (v : Byte) (d : Int), d % 2 = 0 → -8 ≤ d → d ≤ 8 →
    (tmds v d).2 % 2 = 0 ∧ -8 ≤ (tmds v d).2 ∧ (tmds v d).2 ≤ 8) ∧
  (∀ vs : List Byte,
    vs.foldl (fun d v => (tmds v d).2) (0 : Int) % 2 = 0 ∧
    -8 ≤ vs.foldl (fun d v => (tmds v d).2) (0 : Int) ∧
    vs.foldl (fun d v => (tmds v d).2) (0 : Int) ≤ 8) ∧
  (∀ d : Int, d % 2 = 0 → -8 ≤ d → d ≤ 8 → ∃ v : Byte, (tmds v 0).2 = d) ∧
  (∀ (v : Byte) (d : Int), d % 2 = 1 → -7 ≤ d → d ≤ 7 →
    (tmds v d).2 % 2 = 1 ∧ -9 ≤ (tmds v d).2 ∧ (tmds v d).2 ≤ 9) ∧
  tmds 0x00#8 (-1) = (0x3FF#10, 9) ∧ tmds 0xFE#8 1 = (0x000#10, -9)

/-- No control symbol of the default table is ever emitted; the guard-band symbols and every default
TERC4 symbol are (R162, with the default tables, whose values the spec takes from general
knowledge). -/
def Obligations.EncoderNeverEmitsControl : Prop :=
  (∀ (v : Byte) (d : Int), -8 ≤ d → d ≤ 8 → ∀ c1 c0 : Bool,
    (tmds v d).1 ≠ ctrlSym defaultParams c1 c0) ∧
  (∀ d : Int, -8 ≤ d → d ≤ 8 →
    (tmds 0x55#8 d).1 = defaultParams.vgb1 ∧ (tmds 0xAB#8 d).1 = defaultParams.vgb0) ∧
  (∀ n : BitVec 4, ∃ (v : Byte) (d : Int), -8 ≤ d ∧ d ≤ 8 ∧
    (tmds v d).1 = terc4Sym defaultParams n)

/-- The structure of a symbol (R163): bit 8 is the marker, bit 9 says that the code word was inverted,
case A sets them opposite, and with balanced code words, those of 52 values, the disparity plays no
part. -/
def Obligations.EncoderStructure : Prop :=
  (∀ (v : Byte) (d : Int),
    (tmds v d).1.getLsbD 8 = markerBit v ∧
    ((tmds v d).1.getLsbD 9 = true ↔ (tmds v d).1.extractLsb' 0 8 = ~~~codeWord v) ∧
    (d = 0 ∨ onesOf v = zerosOf v → (tmds v d).1.getLsbD 9 = !(tmds v d).1.getLsbD 8) ∧
    (onesOf v = zerosOf v → (tmds v d).2 = d ∧ ∀ d' : Int, (tmds v d').1 = (tmds v d).1)) ∧
  ((List.range 256).filter fun n =>
    decide (onesOf (BitVec.ofNat 8 n) = zerosOf (BitVec.ofNat 8 n))).length = 52

/-- ENC (R165): with DISP_IN in -8..+8 it completes, ENC_OUT takes the symbol and the new disparity and
nothing else but BUSY and the pending command changes; outside, ERR and ERRCODE 2 are set and ENC_OUT
keeps its value. -/
def Obligations.EncCommand : Prop :=
  ∀ (s : State) (v : Byte) (d : Int),
    v = (sources s).regs.encIn.extractLsb' 0 8 →
    d = ((sources s).regs.encIn.extractLsb' 8 5).toInt →
    (-8 ≤ d ∧ d ≤ 8 → exec .enc s = .next { s with
      encSymbol := (tmds v d).1
      encDispOut := BitVec.ofInt 5 (tmds v d).2
      status := { s.status with busy := false }
      pending := none }) ∧
    (¬(-8 ≤ d ∧ d ≤ 8) → exec .enc s = .next { s with
      status := { s.status with busy := false, err := true, errCode := 2#4 }
      pending := none })

/-- After an ENC that completes, the word read at ENC_OUT holds the symbol in bits 9:0 and exactly the
new disparity, as 5-bit two's complement, in bits 20:16, and 0 elsewhere (10_state.md R36;
30_encoding.md R110; 40_symbol_encoder.md R165). -/
def Obligations.EncOutReadsBack : Prop :=
  ∀ (s : State) (v : Byte) (d : Int),
    v = encValue (sources s).regs.encIn → d = encDispIn (sources s).regs.encIn → -8 ≤ d → d ≤ 8 →
    ∃ t, exec .enc s = .next t ∧
      (readReg t .encOut).extractLsb' 0 10 = (tmds v d).1 ∧
      ((readReg t .encOut).extractLsb' 16 5).toInt = (tmds v d).2 ∧
      (readReg t .encOut).extractLsb' 10 6 = 0#6 ∧ (readReg t .encOut).extractLsb' 21 11 = 0#11

/-! ## LUT Builder (41_lut_builder.md) -/

/-- BUILD_LUT (R187): it completes from every state; every word of LUT_MEM takes the value of the
pseudocode, LUT_VALID is set, and nothing else but BUSY and the pending command changes. -/
def Obligations.BuildLutStoresTable : Prop :=
  ∀ s : State, ∃ t : State, exec .buildLut s = .next t ∧
    t = { s with
      lutMem := t.lutMem
      status := { s.status with busy := false, lutValid := true }
      pending := none } ∧
    ∀ (c : BitVec 5) (b : BitVec 4) (i : Nat) (v0 v : Byte) (e0 e1 e2 : Symbol × Int),
      i = ((c.setWidth 10 <<< 1) ||| (b.setWidth 10 <<< 6)).toNat →
      v0 = s.params.depth5to8[c.toNat]'c.isLt →
      v = (if v0 = 0x00#8 ∨ v0 = 0xFF#8 then v0 ^^^ 0x01#8 else v0) →
      e0 = tmds v (2 * (b.toNat : Int) - 8) → e1 = tmds v e0.2 → e2 = tmds v e1.2 →
      (b.toNat ≤ 8 →
        memGet t.lutMem i = some (e0.1.setWidth 32 ||| (e1.1.setWidth 32 <<< 10) |||
          (e2.1.setWidth 32 <<< 20)) ∧
        memGet t.lutMem (i + 1) = some (BitVec.ofInt 32 ((e2.2 + 8) / 2) <<< 6)) ∧
      (8 < b.toNat →
        memGet t.lutMem i = some 0x00000000#32 ∧ memGet t.lutMem (i + 1) = some 0x00000000#32)

/-- Closure and chaining (R186, R190), for every DEPTH5TO8: the disparities of an entry stay even and
within 8, its word 1 is 64 times a bucket in 0..8, and that word, ORed with an even colour index,
is the index of word 0 of that bucket's entry.  With the default table 15 of the 288 entries end at
+8 (R186; the default is the spec's decision D4, assumption log 4). -/
def Obligations.LutEntriesClose : Prop :=
  (∀ (s t : State), exec .buildLut s = .next t → ∀ (c c' : BitVec 5) (b : Nat) (v : Byte), b ≤ 8 →
    v = lutValue s.params c →
    (∀ d : Int, d = (tmds v (2 * (b : Int) - 8)).2 ∨ d = (tripleEncode v (2 * (b : Int) - 8)).2.2.2 →
      d % 2 = 0 ∧ -8 ≤ d ∧ d ≤ 8) ∧
    ∃ (bw : Word) (b' : Nat), memGet t.lutMem (64 * b + 2 * c.toNat + 1) = some bw ∧
      bw.toNat = 64 * b' ∧ b' ≤ 8 ∧
      (b' : Int) = ((tripleEncode v (2 * (b : Int) - 8)).2.2.2 + 8) / 2 ∧
      memGet t.lutMem ((2 * c'.toNat) ||| bw.toNat) = (lutSlot s.params b' c'.toNat)[0]?) ∧
  (((List.range 32).flatMap fun c => (List.range 9).filter fun b =>
    decide ((tripleEncode (lutValue defaultParams (BitVec.ofNat 5 c)) (2 * (b : Int) - 8)).2.2.2
      = 8)).length = 15)

/-! ## Bit Packer (42_bit_packer.md) -/

/-- The packed stream (30_encoding.md R104; 42_bit_packer.md R201): five words for every started group
of 16, stream bit b is bit b mod 10 of symbol b div 10, and the padding is zero symbols. -/
def Obligations.PackedStreamBits : Prop :=
  ∀ s : List Symbol, (packSymbols s).length = 5 * ((s.length + 15) / 16) ∧
    ∀ b : Nat, b < 160 * ((s.length + 15) / 16) →
      ((packSymbols s).getD (b / 32) 0#32).getLsbD (b % 32) =
        (s.getD (b / 10) 0#10).getLsbD (b % 10)

/-- Unpacking (R202, R203): n symbols, bit k of symbol i being stream bit 10 i + k. -/
def Obligations.UnpackedStreamBits : Prop :=
  ∀ (ws : List Word) (n : Nat), (unpackSymbols ws n).length = n ∧
    ∀ i k : Nat, i < n → k < 10 →
      ((unpackSymbols ws n).getD i 0#10).getLsbD k =
        (ws.getD ((10 * i + k) / 32) 0#32).getLsbD ((10 * i + k) % 32)

/-- Round trip (R205): unpacking what was packed gives it back, for every length; packing what was
unpacked gives the words back exactly when the padded tail positions hold zero. -/
def Obligations.PackRoundTrip : Prop :=
  (∀ s : List Symbol, unpackSymbols (packSymbols s) s.length = s) ∧
  ∀ (n : Nat) (ws : List Word), ws.length = 5 * groupsOf n →
    (packSymbols (unpackSymbols ws n) = ws ↔
      ∀ i, n ≤ i → i < 16 * groupsOf n → (unpackGroups (groupsOf n) ws)[i]? = some 0#10)

/-- PACK n (R206, R208): above 1024 ERRCODE 7 and nothing written; otherwise, its sources written, it
completes, PACK_OUT[0 .. 5 G - 1] take the packed words, and every other element and register keeps
its value. -/
def Obligations.PackCommand : Prop :=
  ∀ (s : State) (n : BitVec 16),
    (1024 < n.toNat → exec (.pack n) s = .next { s with
      status := { s.status with busy := false, err := true, errCode := 7#4 }
      pending := none }) ∧
    (∀ syms : List Symbol, n.toNat ≤ 1024 → syms.length = n.toNat →
      (∀ i < n.toNat, memGet (sources s).packIn i = syms[i]?) →
      ∃ t : State, exec (.pack n) s = .next t ∧
        t = { s with
          packOut := t.packOut
          status := { s.status with busy := false }
          pending := none } ∧
        ∀ j, memGet t.packOut j =
          if j < 5 * ((n.toNat + 15) / 16) then (packSymbols syms)[j]? else memGet s.packOut j)

/-- UNPACK n (R207, R208): above 1024 ERRCODE 7 and nothing written; otherwise, its sources written, it
completes, PACK_IN[0 .. n - 1] take the unpacked symbols, and every other element and register keeps
its value. -/
def Obligations.UnpackCommand : Prop :=
  ∀ (s : State) (n : BitVec 16),
    (1024 < n.toNat → exec (.unpack n) s = .next { s with
      status := { s.status with busy := false, err := true, errCode := 7#4 }
      pending := none }) ∧
    (∀ ws : List Word, n.toNat ≤ 1024 → ws.length = 5 * ((n.toNat + 15) / 16) →
      (∀ i < ws.length, memGet (sources s).packOut i = ws[i]?) →
      ∃ t : State, exec (.unpack n) s = .next t ∧
        t = { s with
          packIn := t.packIn
          status := { s.status with busy := false }
          pending := none } ∧
        ∀ i, memGet t.packIn i =
          if i < n.toNat then (unpackSymbols ws n.toNat)[i]? else memGet s.packIn i)

/-- PACK n followed by UNPACK n leaves PACK_IN as it was (R205, R207), for every n they accept. -/
def Obligations.PackThenUnpackRestores : Prop :=
  ∀ (s : State) (n : BitVec 16), n.toNat ≤ 1024 → (∀ i < n.toNat, memGet s.packIn i ≠ none) →
    ∃ t u : State, runCommand (.pack n) s = .next t ∧ runCommand (.unpack n) t = .next u ∧
      ∀ i, memGet u.packIn i = memGet s.packIn i

/-! ## InfoFrame Builder (44_infoframe_builder.md) -/

/-- The checksum invariant (R253) for every VIC and every AVI_HB, and the checksum of the default
header (R252; the default is the spec's from general knowledge, assumption log 4). -/
def Obligations.PacketChecksumZero : Prop :=
  (∀ (p : Params) (vic : Byte),
    ((headerByte p 0).toNat + (headerByte p 1).toNat + (headerByte p 2).toNat +
      (packetChecksum p vic).toNat + ((aviBody vic).map BitVec.toNat).sum) % 256 = 0) ∧
  ∀ vic : Byte, packetChecksum defaultParams vic = 0x6F#8 - vic

/-- BUILD_AVI (R255 to R258): it completes from every state; the four streams of INFO_MEM are the packed
TERC4 symbols of the header bits, with VSYNC inactive and active, and of the low and high nibbles of
checksum and body; AVI_VALID is set, and nothing else but BUSY and the pending command changes. -/
def Obligations.BuildAviStoresStreams : Prop :=
  ∀ (s : State) (r : HostRegs) (byteAt : Nat → Byte), r = (sources s).regs →
    (∀ k, byteAt k = if k = 0 then
        0#8 - (headerByte s.params 0 + headerByte s.params 1 + headerByte s.params 2 + r.vic)
      else if k = 4 then r.vic else 0x00#8) →
    ∃ t : State, exec .buildAvi s = .next t ∧
      t = { s with
        infoMem := t.infoMem
        status := { s.status with busy := false, aviValid := true }
        pending := none } ∧
      (∀ w < 10,
        memGet t.infoMem w = (packSymbols ((List.range 32).map fun i => terc4Sym s.params
          (nibble (i != 0) ((headerByte s.params (i / 8)).getLsbD (i % 8)) (!r.vsAct) r.hsAct)))[w]? ∧
        memGet t.infoMem (10 + w) = (packSymbols ((List.range 32).map fun i => terc4Sym s.params
          (nibble (i != 0) ((headerByte s.params (i / 8)).getLsbD (i % 8)) r.vsAct r.hsAct)))[w]? ∧
        memGet t.infoMem (20 + w) = (packSymbols ((List.range 32).map fun k => terc4Sym s.params
          ((byteAt k).extractLsb' 0 4)))[w]? ∧
        memGet t.infoMem (30 + w) = (packSymbols ((List.range 32).map fun k => terc4Sym s.params
          ((byteAt k).extractLsb' 4 4)))[w]?) ∧
      ∀ i, 40 ≤ i → memGet t.infoMem i = memGet s.infoMem i

/-! ## Blanking Framer (43_blanking_framer.md) -/

/-- BUILD_REGION's checks in their order, over the integers (R221, R232, R236). -/
def Obligations.RegionChecksInOrder : Prop :=
  ∀ (s : State) (kind : RegionKind) (di : Bool) (ha fp pu bp ht : Int) (ok : Prop),
    ha = (sources s).regs.hActive.toNat → fp = (sources s).regs.hFp.toNat →
    pu = (sources s).regs.hPulse.toNat → bp = (sources s).regs.hBp.toNat →
    ht = (sources s).regs.hTotal.toNat →
    (ok ↔ ht = ha + fp + pu + bp ∧ 10 ≤ fp ∧ 12 ≤ bp ∧ ht - ha ≤ 816) →
    (¬ok → exec (.buildRegion kind di) s = .next (invalidInput .timing s)) ∧
    (ok → di = true → (ht - ha) % 16 ≠ 0 →
      exec (.buildRegion kind di) s = .next (invalidInput .diLength s)) ∧
    (ok → di = true → (ht - ha) % 16 = 0 → pu < 32 →
      exec (.buildRegion kind di) s = .next (invalidInput .diPulse s)) ∧
    (ok → di = true → (ht - ha) % 16 = 0 → 32 ≤ pu → (sources s).aviValid = false →
      exec (.buildRegion kind di) s = .next (invalidInput .aviNotBuilt s))

/-- BUILD_REGION (R233, R234): when its checks pass, and INFO_MEM is written if it has a data island, it
completes; each channel's packed symbols stand in its block, every other element of REGION_MEM keeps
its value, REGION_VALID and REGION_DI of the kind are written, and nothing else but BUSY and the
pending command changes. -/
def Obligations.RegionStored : Prop :=
  ∀ (s : State) (kind : RegionKind) (di : Bool) (st : Streams) (r : HostRegs) (len k : Nat),
    r = (sources s).regs → k = kindIndex kind →
    r.hTotal.toNat = r.hActive.toNat + r.hFp.toNat + r.hPulse.toNat + r.hBp.toNat →
    10 ≤ r.hFp.toNat → 12 ≤ r.hBp.toNat → len = r.hTotal.toNat - r.hActive.toNat → len ≤ 816 →
    ((di = false ∧ st = noStreams) ∨
      (di = true ∧ len % 16 = 0 ∧ 32 ≤ r.hPulse.toNat ∧ (sources s).aviValid = true ∧
        ∃ ws : List Word, ws.length = 40 ∧
          (∀ i < 40, memGet (sources s).infoMem i = ws[i]?) ∧ st = streamsOf ws)) →
    ∃ t : State, exec (.buildRegion kind di) s = .next t ∧
      t = { s with
        regionMem := t.regionMem
        status := { s.status with
          busy := false, regionValid := t.status.regionValid, regionDi := t.status.regionDi }
        pending := none } ∧
      (∀ j < 4,
        regionBit t.status.regionValid j = (if j = k then true else regionBit s.status.regionValid j) ∧
        regionBit t.status.regionDi j = (if j = k then di else regionBit s.status.regionDi j)) ∧
      (∀ (c : Channel) (w : Nat), w < 5 * ((len + 15) / 16) →
        memGet t.regionMem (256 * (3 * k + channelIndex c) + w) =
          (packSymbols ((List.range len).map (regionSym s.params r st kind di c)))[w]?) ∧
      ∀ i, (∀ c : Channel, i < 256 * (3 * k + channelIndex c) ∨
          256 * (3 * k + channelIndex c) + 5 * ((len + 15) / 16) ≤ i) →
        memGet t.regionMem i = memGet s.regionMem i

/-- The eight segments of an accepted timing stand where R222 says, and a region has at least 22
symbols (R221). -/
def Obligations.SegmentLayout : Prop :=
  ∀ (r : HostRegs) (j fp pu bp len : Nat), timingValid r = true → fp = r.hFp.toNat →
    pu = r.hPulse.toNat → bp = r.hBp.toNat → len = regionLength r → j < len →
    len = fp + pu + bp ∧ 22 ≤ len ∧
    (segmentOf r j = .fpPad ↔ j + 11 ≤ fp) ∧
    (segmentOf r j = .diPre ↔ fp ≤ j + 10 ∧ j + 3 ≤ fp) ∧
    (segmentOf r j = .diGbLead ↔ fp ≤ j + 2 ∧ j + 1 ≤ fp) ∧
    (segmentOf r j = .body ↔ fp ≤ j ∧ j + 1 ≤ fp + pu) ∧
    (segmentOf r j = .diGbTrail ↔ fp + pu ≤ j ∧ j ≤ fp + pu + 1) ∧
    (segmentOf r j = .bpPad ↔ fp + pu + 2 ≤ j ∧ j + 11 ≤ len) ∧
    (segmentOf r j = .vPre ↔ len ≤ j + 10 ∧ j + 3 ≤ len) ∧
    (segmentOf r j = .vGb ↔ len ≤ j + 2 ∧ j + 1 ≤ len)

/-- What each channel carries in each segment (R225, R226, R227, R231). -/
def Obligations.ChannelContents : Prop :=
  ∀ (p : Params) (r : HostRegs) (st : Streams) (kind : RegionKind) (di : Bool) (j : Nat)
    (hs vs : Bool), hs = hsLevel r j → vs = vsLevel r kind j →
    regionSym p r st kind di .ch0 j = (match segmentOf r j with
      | .fpPad => ctrlSym p vs hs
      | .diPre => ctrlSym p vs hs
      | .diGbLead => terc4Sym p (nibble true true vs hs)
      | .body => if di then packetSym p r st kind .ch0 j else ctrlSym p vs hs
      | .diGbTrail => terc4Sym p (nibble true true vs hs)
      | .bpPad => ctrlSym p vs hs
      | .vPre => ctrlSym p vs hs
      | .vGb => p.vgb0) ∧
    regionSym p r st kind di .ch1 j = (match segmentOf r j with
      | .fpPad => ctrlSym p false false
      | .diPre => ctrlSym p false true
      | .diGbLead => p.digb
      | .body => if di then packetSym p r st kind .ch1 j else ctrlSym p false false
      | .diGbTrail => p.digb
      | .bpPad => ctrlSym p false false
      | .vPre => ctrlSym p false true
      | .vGb => p.vgb1) ∧
    regionSym p r st kind di .ch2 j = (match segmentOf r j with
      | .fpPad => ctrlSym p false false
      | .diPre => ctrlSym p false true
      | .diGbLead => p.digb
      | .body => if di then packetSym p r st kind .ch2 j else ctrlSym p false false
      | .diGbTrail => p.digb
      | .bpPad => ctrlSym p false false
      | .vPre => ctrlSym p false false
      | .vGb => p.vgb2)

/-- The sync levels by position (R223, R224): HSYNC is active exactly on the pulse, VSYNC as the kind
says, with its edge at the start of the pulse, so that it is constant over the body. -/
def Obligations.SyncLevelsByPosition : Prop :=
  ∀ (r : HostRegs) (j fp pu : Nat), fp = r.hFp.toNat → pu = r.hPulse.toNat →
    (hsLevel r j = r.hsAct ↔ fp ≤ j ∧ j < fp + pu) ∧
    (vsLevel r .normal j = !r.vsAct) ∧
    (vsLevel r .vsEnter j = r.vsAct ↔ fp ≤ j) ∧
    (vsLevel r .vsActive j = r.vsAct) ∧
    (vsLevel r .vsExit j = r.vsAct ↔ j < fp) ∧
    ∀ kind : RegionKind, fp ≤ j → j < fp + pu →
      vsLevel r kind j = (if bodyVsync kind then r.vsAct else !r.vsAct)

/-- The data-island body (R228, R229, R230): packet 0 is the AVI packet, with the header stream the
body's VSYNC level selects, and every later packet is a null packet. -/
def Obligations.PacketBody : Prop :=
  ∀ (p : Params) (r : HostRegs) (st : Streams) (kind : RegionKind) (n : Nat),
    n < r.hPulse.toNat →
    (n < 32 →
      regionSym p r st kind true .ch0 (r.hFp.toNat + n) =
        (if bodyVsync kind then st.headerVsync else st.header).getD n 0#10 ∧
      regionSym p r st kind true .ch1 (r.hFp.toNat + n) = st.bodyLow.getD n 0#10 ∧
      regionSym p r st kind true .ch2 (r.hFp.toNat + n) = st.bodyHigh.getD n 0#10) ∧
    (32 ≤ n →
      regionSym p r st kind true .ch0 (r.hFp.toNat + n) =
        terc4Sym p (nibble (n % 32 != 0) false (if bodyVsync kind then r.vsAct else !r.vsAct)
          r.hsAct) ∧
      regionSym p r st kind true .ch1 (r.hFp.toNat + n) = terc4Sym p 0x0#4 ∧
      regionSym p r st kind true .ch2 (r.hFp.toNat + n) = terc4Sym p 0x0#4)

/-- Channels 1 and 2 depend on neither the kind nor SYNC_CFG (R235). -/
def Obligations.ChannelsOneTwoKindFree : Prop :=
  ∀ (p : Params) (r : HostRegs) (hs vs : Bool) (st : Streams) (kind kind' : RegionKind) (di : Bool)
    (c : Channel) (j : Nat), c ≠ .ch0 →
    regionSym p { r with hsAct := hs, vsAct := vs } st kind' di c j = regionSym p r st kind di c j

/-- Two kinds built in either order give the same REGION_MEM and the same STATUS (R237). -/
def Obligations.RegionBuildsCommute : Prop :=
  ∀ (s : State) (k₁ k₂ : RegionKind) (d₁ d₂ : Bool), k₁ ≠ k₂ →
    regionError s.regs s.status.aviValid d₁ = none →
    regionError s.regs s.status.aviValid d₂ = none →
    (d₁ = true ∨ d₂ = true → ∀ i < 40, memGet s.infoMem i ≠ none) →
    ∃ a ab b ba : State,
      runCommand (.buildRegion k₁ d₁) s = .next a ∧ runCommand (.buildRegion k₂ d₂) a = .next ab ∧
      runCommand (.buildRegion k₂ d₂) s = .next b ∧ runCommand (.buildRegion k₁ d₁) b = .next ba ∧
      ab.status = ba.status ∧ ∀ i, memGet ab.regionMem i = memGet ba.regionMem i

/-! ## Command control and errors (45_command_control.md, 60_exceptions.md) -/

/-- NOP (R272): it completes and writes nothing; with its issue it clears an earlier error, and any
word with OP = 0 is a NOP. -/
def Obligations.NopCommand : Prop :=
  (∀ s : State, exec .nop s =
    .next { s with status := { s.status with busy := false }, pending := none }) ∧
  ∀ (s : State) (w : Word), cmdOp w = 0x0#4 →
    exec (decodeWord w) (issueCommand w s) = .next { s with
      status := { s.status with busy := false, err := false, errCode := 0#4 }
      pending := none }

/-- The reserved commands (R273): every word with OP in 0x7..0xF completes with ERR and ERRCODE 1,
whatever its other bits, and changes nothing else but BUSY and the pending command. -/
def Obligations.ReservedCommand : Prop :=
  (∀ (s : State) (w : Word), 7 ≤ (cmdOp w).toNat →
    exec (decodeWord w) s = .next { s with
      status := { s.status with busy := false, err := true, errCode := 1#4 }
      pending := none }) ∧
  ∀ (s : State) (i : Instr) (op : BitVec 4), i = .reserved7 ∨ i = .reserved8F op →
    exec i s = .next { s with
      status := { s.status with busy := false, err := true, errCode := 1#4 }
      pending := none }

/-- Issue (R270): a write to CMD with BUSY = 0 makes the word pending with a snapshot of the sources,
sets BUSY, clears ERR and ERRCODE, and changes nothing else; the command is the decoded word.  That
the snapshot holds the sources of every command is the model's choice (assumption log 9). -/
def Obligations.IssueTakesSnapshot : Prop :=
  ∀ (s : State) (w : Word), s.status.busy = false →
    hostWrite .word 0x0000#16 w s = { s with
      pending := some ⟨w, ⟨s.regs, s.status.aviValid, s.infoMem, s.packIn, s.packOut⟩⟩
      status := { s.status with busy := true, err := false, errCode := 0#4 } } ∧
    fetchCommand (hostWrite .word 0x0000#16 w s) = some (decodeWord w)

/-- The error codes (60_exceptions.md R301) and what InvalidInput writes (R300; 45 R271). -/
def Obligations.InvalidInputRecordsCode : Prop :=
  ∀ (s : State) (code : ErrCode) (bits : BitVec 4),
    bits = (match code with
      | .reservedOp => 1#4
      | .dispRange => 2#4
      | .timing => 3#4
      | .diLength => 4#4
      | .diPulse => 5#4
      | .aviNotBuilt => 6#4
      | .packCount => 7#4) →
    invalidInput code s = { s with
      status := { s.status with busy := false, err := true, errCode := bits }
      pending := none }

/-- No partial output (R302): a command that sets ERR writes nothing but BUSY, ERR, ERRCODE and the
pending command, and its code is one of 1 to 7. -/
def Obligations.ErrorsWriteNothing : Prop :=
  ∀ (i : Instr) (s t : State), exec i s = .next t → s.status.err = false → t.status.err = true →
    t = { s with
      status := { s.status with busy := false, err := true, errCode := t.status.errCode }
      pending := none } ∧
    1 ≤ t.status.errCode.toNat ∧ t.status.errCode.toNat ≤ 7

/-- A command whose checks pass and that reads an element nothing has written records UninitRead of it
and does nothing else (60_exceptions.md R312).  That it is the first such element in index order, and
that BUSY and the pending command stay, is the model's choice (assumption log 8). -/
def Obligations.UnwrittenSourcesFault : Prop :=
  ∀ (s : State) (n : BitVec 16) (kind : RegionKind) (i : Nat),
    (n.toNat ≤ 1024 → i < n.toNat → memGet (sources s).packIn i = none →
      (∀ j < i, memGet (sources s).packIn j ≠ none) →
      exec (.pack n) s = .next { s with fault := some (.uninitRead (.packIn i)) }) ∧
    (n.toNat ≤ 1024 → i < 5 * ((n.toNat + 15) / 16) → memGet (sources s).packOut i = none →
      (∀ j < i, memGet (sources s).packOut j ≠ none) →
      exec (.unpack n) s = .next { s with fault := some (.uninitRead (.packOut i)) }) ∧
    (regionError (sources s).regs (sources s).aviValid true = none → i < 40 →
      memGet (sources s).infoMem i = none → (∀ j < i, memGet (sources s).infoMem j ≠ none) →
      exec (.buildRegion kind true) s = .next { s with fault := some (.uninitRead (.infoMem i)) })

/-- The error record is kept (60_exceptions.md R303; 10_state.md R34): a step that neither issues nor
completes a command and is no reset leaves ERR, ERRCODE, LUT_VALID and REGION_DI alone, reads of
STATUS among them, and nothing but a reset clears LUT_VALID. -/
def Obligations.ErrorRecordKept : Prop :=
  ∀ s t : State, step s = .next t → resetNext s = false →
    (s.status.lutValid = true → t.status.lutValid = true) ∧
    (t.pending.isSome = s.pending.isSome → s.status.busy = s.pending.isSome →
      t.status.err = s.status.err ∧ t.status.errCode = s.status.errCode ∧
      t.status.lutValid = s.status.lutValid ∧ t.status.regionDi = s.status.regionDi)

/-- Frames of the commands (10_state.md R34, R36, R42 to R46; 43 R233): no command writes a register of
the host, the parameters, the inbox or the host's reply; each destination and validity bit is written
only by its own command, and BUILD_REGION only in the blocks of its kind. -/
def Obligations.CommandFrames : Prop :=
  ∀ (i : Instr) (s t : State), exec i s = .next t →
    t.regs = s.regs ∧ t.params = s.params ∧ t.inbox = s.inbox ∧ t.reply = s.reply ∧
    t.draws = s.draws ∧
    (i ≠ .enc → t.encSymbol = s.encSymbol ∧ t.encDispOut = s.encDispOut) ∧
    (i ≠ .buildLut → t.lutMem = s.lutMem ∧ t.status.lutValid = s.status.lutValid) ∧
    (i ≠ .buildAvi → t.infoMem = s.infoMem ∧ t.status.aviValid = s.status.aviValid) ∧
    ((∀ k d, i ≠ .buildRegion k d) → t.regionMem = s.regionMem ∧
      t.status.regionValid = s.status.regionValid ∧ t.status.regionDi = s.status.regionDi) ∧
    (∀ k d, i = .buildRegion k d → ∀ k' : RegionKind, k' ≠ k →
      regionBit t.status.regionValid (kindIndex k') =
        regionBit s.status.regionValid (kindIndex k') ∧
      regionBit t.status.regionDi (kindIndex k') = regionBit s.status.regionDi (kindIndex k') ∧
      ∀ (c : Channel) (w : Nat), w < 256 →
        memGet t.regionMem (256 * (3 * kindIndex k' + channelIndex c) + w) =
          memGet s.regionMem (256 * (3 * kindIndex k' + channelIndex c) + w)) ∧
    ((∀ n, i ≠ .pack n) → t.packOut = s.packOut) ∧
    ((∀ n, i ≠ .unpack n) → t.packIn = s.packIn)

/-- Every command ends (R271, R276; 60_exceptions.md R312): with BUSY = 0 and nothing pending, or, for
the commands that read a memory, with the record of one unwritten source element and no other
effect (the model's choice, assumption log 8). -/
def Obligations.CommandEnds : Prop :=
  ∀ (i : Instr) (s : State), ∃ t : State, exec i s = .next t ∧
    ((t.pending = none ∧ t.status.busy = false ∧ t.fault = s.fault) ∨
      ((∃ n, i = .pack n) ∨ (∃ n, i = .unpack n) ∨ ∃ kind, i = .buildRegion kind true) ∧
        ∃ e, t = { s with fault := some (.uninitRead e) })

/-- A pending command uses its snapshot throughout (10_state.md R40): other register values change
nothing of what it does. -/
def Obligations.CommandIgnoresLiveRegisters : Prop :=
  ∀ (i : Instr) (s t : State) (p : Pending) (r : HostRegs), s.pending = some p →
    exec i s = .next t → exec i { s with regs := r } = .next { t with regs := r }

/-! ## Host port (10_state.md, 20_memory.md, 60_exceptions.md) -/

/-- An access of another width, at an address not a multiple of 4, or at an unmapped address records
BusError and has no other effect; every other access reaches a location (20_memory.md R71;
60_exceptions.md R305). -/
def Obligations.IllegalAccessFaults : Prop :=
  ∀ (s : State) (width : Width) (a : Addr) (v : Word),
    (width ≠ .word ∨ a.toNat % 4 ≠ 0 ∨ unmappedAddr a.toNat →
      hostRead width a s = { s with fault := some (.busError a) } ∧
      hostWrite width a v s = { s with fault := some (.busError a) }) ∧
    (width = .word ∧ a.toNat % 4 = 0 ∧ ¬unmappedAddr a.toNat →
      ∃ loc, legalAccess width a = some loc ∧ hostRead width a s = hostReadLoc loc s ∧
        hostWrite width a v s = hostWriteLoc loc v s)

/-- The address map (20_memory.md R72). -/
def Obligations.AddressMap : Prop :=
  (∀ i (r : Reg), [Reg.cmd, .status, .encIn, .encOut, .hActive, .hFp, .hPulse, .hBp, .hTotal,
      .syncCfg, .vic][i]? = some r → legalAccess .word (BitVec.ofNat 16 (4 * i)) = some (.reg r)) ∧
  (∀ i < 16, legalAccess .word (BitVec.ofNat 16 (0x0100 + 4 * i)) = some (.terc4Rom i)) ∧
  (∀ i < 4, legalAccess .word (BitVec.ofNat 16 (0x0140 + 4 * i)) = some (.ctrlRom i)) ∧
  (∀ i < 4, legalAccess .word (BitVec.ofNat 16 (0x0150 + 4 * i)) = some (.gbRom i)) ∧
  (∀ i < 1024, legalAccess .word (BitVec.ofNat 16 (0x1000 + 4 * i)) = some (.lutMem i)) ∧
  (∀ i < 40, legalAccess .word (BitVec.ofNat 16 (0x2000 + 4 * i)) = some (.infoMem i)) ∧
  (∀ k < 4, ∀ c < 3, ∀ w < 256,
    legalAccess .word (BitVec.ofNat 16 (0x4000 + 0x400 * (3 * k + c) + 4 * w)) =
      some (.regionMem k c w)) ∧
  (∀ i < 1024, legalAccess .word (BitVec.ofNat 16 (0x8000 + 4 * i)) = some (.packIn i)) ∧
  (∀ i < 320, legalAccess .word (BitVec.ofNat 16 (0x9000 + 4 * i)) = some (.packOut i)) ∧
  ∀ a : Addr, unmappedAddr a.toNat → legalAccess .word a = none

/-- Writes without effect: while BUSY = 1 a write to CMD, a read-write register, PACK_IN or PACK_OUT
records the fault with its reason and does nothing else (60_exceptions.md R306), and a write to a
read-only location is at any time a legal access that changes nothing (20_memory.md R76). -/
def Obligations.WritesWithoutEffect : Prop :=
  ∀ (s : State) (a : Addr) (v : Word) (loc : Loc), legalAccess .word a = some loc →
    (s.status.busy = true →
      (loc = .reg .cmd →
        hostWrite .word a v s = { s with fault := some (.hostContract .cmdWhileBusy) }) ∧
      (loc ∈ [Loc.reg .encIn, .reg .hActive, .reg .hFp, .reg .hPulse, .reg .hBp, .reg .hTotal,
          .reg .syncCfg, .reg .vic] →
        hostWrite .word a v s = { s with fault := some (.hostContract .configWhileBusy) }) ∧
      ((∃ i, loc = .packIn i ∨ loc = .packOut i) →
        hostWrite .word a v s = { s with fault := some (.hostContract .bufferWhileBusy) })) ∧
    (loc = .reg .status ∨ loc = .reg .encOut ∨ (∃ i, loc = .terc4Rom i) ∨ (∃ i, loc = .ctrlRom i) ∨
      (∃ i, loc = .gbRom i) ∨ (∃ i, loc = .lutMem i) ∨ (∃ i, loc = .infoMem i) ∨
      (∃ k c w, loc = .regionMem k c w) →
      hostWrite .word a v s = s)

/-- A configuration write with BUSY = 0 (10_state.md R35, R37 to R39, R41): the register takes its bits
of the word, a write to VIC or SYNC_CFG clears AVI_VALID and REGION_VALID, a write to a timing
register clears REGION_VALID, and nothing else changes. -/
def Obligations.ConfigWritesInvalidate : Prop :=
  ∀ (s : State) (v : Word), s.status.busy = false →
    hostWrite .word 0x0008#16 v s =
      { s with regs := { s.regs with encIn := v.extractLsb' 0 13 } } ∧
    hostWrite .word 0x0010#16 v s = { s with
      regs := { s.regs with hActive := v.extractLsb' 0 16 }
      status := { s.status with regionValid := 0 } } ∧
    hostWrite .word 0x0014#16 v s = { s with
      regs := { s.regs with hFp := v.extractLsb' 0 16 }
      status := { s.status with regionValid := 0 } } ∧
    hostWrite .word 0x0018#16 v s = { s with
      regs := { s.regs with hPulse := v.extractLsb' 0 16 }
      status := { s.status with regionValid := 0 } } ∧
    hostWrite .word 0x001C#16 v s = { s with
      regs := { s.regs with hBp := v.extractLsb' 0 16 }
      status := { s.status with regionValid := 0 } } ∧
    hostWrite .word 0x0020#16 v s = { s with
      regs := { s.regs with hTotal := v.extractLsb' 0 16 }
      status := { s.status with regionValid := 0 } } ∧
    hostWrite .word 0x0024#16 v s = { s with
      regs := { s.regs with hsAct := v.getLsbD 0, vsAct := v.getLsbD 1 }
      status := { s.status with aviValid := false, regionValid := 0 } } ∧
    hostWrite .word 0x0028#16 v s = { s with
      regs := { s.regs with vic := v.extractLsb' 0 8 }
      status := { s.status with aviValid := false, regionValid := 0 } }

/-- A read of a read-write register returns the last word written, cut to the register's bits
(10_state.md R35, R37, R38, R39). -/
def Obligations.RegistersReadBack : Prop :=
  ∀ (s t : State) (a : Addr) (v mask : Word), s.status.busy = false →
    (a, mask) ∈ [(0x0008#16, 0x00001FFF#32), (0x0010#16, 0x0000FFFF#32), (0x0014#16, 0x0000FFFF#32),
      (0x0018#16, 0x0000FFFF#32), (0x001C#16, 0x0000FFFF#32), (0x0020#16, 0x0000FFFF#32),
      (0x0024#16, 0x00000003#32), (0x0028#16, 0x000000FF#32)] →
    t = hostWrite .word a v s → hostRead .word a t = { t with reply := some (v &&& mask) }

/-- A host write to PACK_IN or PACK_OUT with BUSY = 0 (10_state.md R45, R46): the entry then reads as
the word, cut to 10 bits in PACK_IN, every other location reads as before, and nothing else
changes. -/
def Obligations.BuffersReadBack : Prop :=
  ∀ (s t : State) (v : Word) (i : Nat), s.status.busy = false →
    (i < 1024 → t = hostWrite .word (BitVec.ofNat 16 (0x8000 + 4 * i)) v s →
      t = { s with packIn := t.packIn } ∧ readLoc t (.packIn i) = .ok (v &&& 0x000003FF#32) ∧
      ∀ loc, loc ≠ .packIn i → readLoc t loc = readLoc s loc) ∧
    (i < 320 → t = hostWrite .word (BitVec.ofNat 16 (0x9000 + 4 * i)) v s →
      t = { s with packOut := t.packOut } ∧ readLoc t (.packOut i) = .ok v ∧
      ∀ loc, loc ≠ .packOut i → readLoc t loc = readLoc s loc)

/-- A read has no side effect on the core (20_memory.md R75): only the host's reply, the count of free
draws and a recorded fault can change, and a second read of a location not free gives the same
word. -/
def Obligations.ReadsChangeNothing : Prop :=
  ∀ (s t : State) (width : Width) (a : Addr), t = hostRead width a s →
    t = { s with reply := t.reply, draws := t.draws, fault := t.fault } ∧
    (∀ loc, legalAccess width a = some loc → drawsFree s loc = false →
      t.draws = s.draws ∧ hostRead width a t = t)

/-- What a legal read answers: of an element nothing has written, at any time, the record of UninitRead
and nothing else (60_exceptions.md R312); of a written element of the pending command's destination
while BUSY = 1, a free draw (20_memory.md R79; which locations a destination has is the model's
reading, assumption log 6); of any other location, its value.  Registers and ROMs always have a
value. -/
def Obligations.ReadAnswers : Prop :=
  ∀ (s : State) (a : Addr) (loc : Loc), legalAccess .word a = some loc →
    (∀ e, readLoc s loc = .error e →
      hostRead .word a s = { s with fault := some (.uninitRead e) } ∧ elementOf loc = some e) ∧
    (∀ v p, readLoc s loc = .ok v → s.status.busy = true → s.pending = some p →
      isDestination (decodeWord p.word) loc = true →
      hostRead .word a s = { s with
        reply := some (drawnWord loc (Config.freeDraw s.draws)), draws := s.draws + 1 }) ∧
    (∀ v, readLoc s loc = .ok v →
      (s.status.busy = false ∨ s.pending = none ∨
        ∃ p, s.pending = some p ∧ isDestination (decodeWord p.word) loc = false) →
      hostRead .word a s = { s with reply := some v })

/-- The ROMs (10_state.md R47): TERC4_ROM[n], CTRL_ROM[2 c1 + c0] and GB_ROM[0..3] read as their symbols,
zero-extended, in every state, and no step writes them. -/
def Obligations.RomReads : Prop :=
  ∀ s : State,
    (∀ n : BitVec 4, hostRead .word (BitVec.ofNat 16 (0x0100 + 4 * n.toNat)) s =
      { s with reply := some ((terc4Sym s.params n).setWidth 32) }) ∧
    (∀ c1 c0 : Bool,
      hostRead .word (BitVec.ofNat 16 (0x0140 + 4 * (2 * c1.toNat + c0.toNat))) s =
        { s with reply := some ((ctrlSym s.params c1 c0).setWidth 32) }) ∧
    hostRead .word 0x0150#16 s = { s with reply := some (s.params.vgb0.setWidth 32) } ∧
    hostRead .word 0x0154#16 s = { s with reply := some (s.params.vgb1.setWidth 32) } ∧
    hostRead .word 0x0158#16 s = { s with reply := some (s.params.vgb2.setWidth 32) } ∧
    hostRead .word 0x015C#16 s = { s with reply := some (s.params.digb.setWidth 32) } ∧
    ∀ t : State, step s = .next t → t.params = s.params

/-! ## Invariants of every step -/

/-- The invariant holds right after reset. -/
def Obligations.ResetHasInvariant : Prop := State.Inv State.reset

/-- Every step from a state whose memories have their canonical form, the model's own (assumption log
10), leaves one: no index beyond the sizes of 10_state.md R42 to R46 is ever written. -/
def Obligations.StepKeepsMemoriesWf : Prop :=
  ∀ s t : State, s.memWf → step s = .next t → t.memWf

/-- Every step keeps the whole invariant: the memories' form, STATUS in agreement with the pending
command and its error code (10_state.md R34, R48; 60_exceptions.md R311), the snapshot (R40), and the
tables the validity bits promise (R41; 70_reset_and_hazards.md R346, R347). -/
def Obligations.StepKeepsInvariant : Prop :=
  ∀ s t : State, s.Inv → step s = .next t → t.Inv

/-- Packet consistency (70_reset_and_hazards.md R347): where REGION_VALID[k] = 1 and REGION_DI[k] = 1,
the symbols at the AVI packet's 32 positions of REGION_MEM[k] are those of the streams a BUILD_AVI
with the current VIC and SYNC_CFG stores. -/
def Obligations.PacketConsistency : Prop :=
  ∀ (s : State) (kind : RegionKind) (q : Nat), s.Inv →
    regionBit s.status.regionValid (kindIndex kind) = true →
    regionBit s.status.regionDi (kindIndex kind) = true → q < 32 →
    ∀ c : Channel, ∃ ws : List Word,
      (∀ w < 5 * groupsOf (regionLength s.regs),
        memGet s.regionMem (256 * (3 * kindIndex kind + channelIndex c) + w) = ws[w]?) ∧
      (unpackSymbols ws (regionLength s.regs))[s.regs.hFp.toNat + q]? =
        (match c with
         | .ch0 => headerStream s.params (if bodyVsync kind then s.regs.vsAct else !s.regs.vsAct)
             s.regs.hsAct
         | .ch1 => lowStream s.params s.regs.vic
         | .ch2 => highStream s.params s.regs.vic)[q]?

/-- A pending command is completed, or the run meets a fault, after at most one step more than the
inputs that wait (45_command_control.md R271: completion happens after a finite number of host
accesses; the bound is the model's, assumption log 2). -/
def Obligations.PendingCommandCompletes : Prop :=
  ∀ (s : State) (p : Pending), s.pending = some p →
    ∃ (k : Nat) (t : State), k ≤ s.inbox.length + 1 ∧
      Host.Core.run Sys2Proof.core k s = .next t ∧ (t.pending = none ∨ t.fault.isSome = true)
end

