-- ==== Sys2Proof/Laws/Memory.lean ====
section
/-! SUPPORT. The laws of the memories: what a block write reads back as, that it leaves every other
element alone, that it keeps the canonical form, and what a block read answers. -/

namespace Sys2Proof.Machine

/-- A cell of a run of consecutive elements has its index in the run. -/
theorem mem_cellsFrom {w : Nat} {c : Nat × BitVec w} {vs : List (BitVec w)} {base : Nat}
    (h : c ∈ cellsFrom base vs) : base ≤ c.1 ∧ c.1 < base + vs.length := by
  induction vs generalizing base with
  | nil => simp [cellsFrom] at h
  | cons v vs ih =>
    simp only [cellsFrom, List.mem_cons] at h
    rcases h with rfl | h
    · simp
    · have := ih h
      simp only [List.length_cons]
      omega

/-- A run of consecutive elements holds its k-th value at index base + k. -/
theorem memGet_cellsFrom {w : Nat} (vs : List (BitVec w)) (base i : Nat) :
    memGet (cellsFrom base vs) i = if base ≤ i then vs[i - base]? else none := by
  induction vs generalizing base with
  | nil => simp [cellsFrom, memGet]
  | cons v vs ih =>
    have hi := ih (base + 1)
    simp only [memGet] at hi ⊢
    simp only [cellsFrom, List.lookup_cons]
    by_cases hb : i = base
    · subst hb; simp
    · have hne : (i == base) = false := by simpa using hb
      simp only [hne, hi]
      by_cases hle : base + 1 ≤ i
      · have h1 : base ≤ i := by omega
        have h2 : i - base = (i - (base + 1)) + 1 := by omega
        simp [hle, h1, h2]
      · have h1 : ¬ base ≤ i := by omega
        simp [hle, h1]

/-- Reading a filtered memory, where the filter keeps the index read. -/
theorem memGet_filter_keep {w : Nat} (m : Memory w) (p : Nat → Bool) (i : Nat) (h : p i = true) :
    memGet (m.filter fun c => p c.1) i = memGet m i := by
  induction m with
  | nil => rfl
  | cons c m ih =>
    obtain ⟨k, v⟩ := c
    simp only [memGet] at ih ⊢
    rw [List.filter_cons, List.lookup_cons]
    by_cases hk : p k = true
    · rw [if_pos hk, List.lookup_cons, ih]
    · have hne : (i == k) = false := by
        simp only [beq_eq_false_iff_ne, ne_eq]
        rintro rfl
        exact hk h
      rw [if_neg hk, ih, hne]

/-- Reading a filtered memory, where the filter drops the index read. -/
theorem memGet_filter_drop {w : Nat} (m : Memory w) (p : Nat → Bool) (i : Nat) (h : p i = false) :
    memGet (m.filter fun c => p c.1) i = none := by
  simp only [memGet, List.lookup_eq_none_iff]
  intro c hc
  have hpc := (List.mem_filter.1 hc).2
  simp only [bne_iff_ne, ne_eq]
  rintro rfl
  simp_all

/-- Reading an appended memory. -/
theorem memGet_append {w : Nat} (m₁ m₂ : Memory w) (i : Nat) :
    memGet (m₁ ++ m₂) i = (memGet m₁ i).or (memGet m₂ i) := by
  simp [memGet, List.lookup_append]

/-- A block write reads back as the written values inside the block, and as before outside it. -/
theorem memGet_memPut {w : Nat} (m : Memory w) (base : Nat) (vs : List (BitVec w)) (i : Nat) :
    memGet (memPut m base vs) i =
      if base ≤ i ∧ i < base + vs.length then vs[i - base]? else memGet m i := by
  unfold memPut
  rw [memGet_append, memGet_append, memGet_cellsFrom]
  by_cases hlo : i < base
  · have h1 : ¬ base ≤ i := by omega
    have h2 : ¬ base + vs.length ≤ i := by omega
    rw [memGet_filter_keep m (fun j => decide (j < base)) i (by simpa using hlo),
      memGet_filter_drop m (fun j => decide (base + vs.length ≤ j)) i (by simpa using h2)]
    simp [h1]
  · rw [memGet_filter_drop m (fun j => decide (j < base)) i (by simpa using hlo)]
    have h1 : base ≤ i := by omega
    by_cases hhi : base + vs.length ≤ i
    · rw [memGet_filter_keep m (fun j => decide (base + vs.length ≤ j)) i (by simpa using hhi)]
      have h2 : ¬ i < base + vs.length := by omega
      have h3 : vs[i - base]? = none := by
        rw [List.getElem?_eq_none_iff]; omega
      simp [h1, h2, h3]
    · rw [memGet_filter_drop m (fun j => decide (base + vs.length ≤ j)) i (by simpa using hhi)]
      have h2 : i < base + vs.length := by omega
      simp [h1, h2]

/-- Inside the block a write reads back as the value written. -/
theorem memGet_memPut_inside {w : Nat} (m : Memory w) (base k : Nat) (vs : List (BitVec w))
    (h : k < vs.length) : memGet (memPut m base vs) (base + k) = some vs[k] := by
  rw [memGet_memPut, if_pos ⟨by omega, by omega⟩]
  simp [h]

/-- Outside the block a write leaves every element alone. -/
theorem memGet_memPut_outside {w : Nat} (m : Memory w) (base i : Nat) (vs : List (BitVec w))
    (h : i < base ∨ base + vs.length ≤ i) : memGet (memPut m base vs) i = memGet m i := by
  rw [memGet_memPut, if_neg (by omega)]

/-- The cells of a run of consecutive elements are strictly rising. -/
theorem cellsFrom_pairwise {w : Nat} (vs : List (BitVec w)) (base : Nat) :
    (cellsFrom base vs).Pairwise fun a b => a.1 < b.1 := by
  induction vs generalizing base with
  | nil => simp [cellsFrom]
  | cons v vs ih =>
    simp only [cellsFrom, List.pairwise_cons]
    refine ⟨fun c hc => ?_, ih (base + 1)⟩
    have := mem_cellsFrom hc
    omega

/-- A block write inside the memory keeps the canonical form. -/
theorem memPut_wf {w size : Nat} {m : Memory w} (h : Memory.wf size m) (base : Nat)
    (vs : List (BitVec w)) (hsize : base + vs.length ≤ size) :
    Memory.wf size (memPut m base vs) := by
  obtain ⟨hp, hb⟩ := h
  refine ⟨?_, ?_⟩
  · unfold memPut
    rw [List.pairwise_append, List.pairwise_append]
    refine ⟨⟨hp.filter _, cellsFrom_pairwise vs base, ?_⟩, hp.filter _, ?_⟩
    · intro a ha b hb'
      have h1 := (List.mem_filter.1 ha).2
      have h2 := mem_cellsFrom hb'
      simp only [decide_eq_true_eq] at h1
      omega
    · intro a ha b hb'
      have h2 := (List.mem_filter.1 hb').2
      simp only [decide_eq_true_eq] at h2
      rcases List.mem_append.1 ha with ha | ha
      · have h1 := (List.mem_filter.1 ha).2
        simp only [decide_eq_true_eq] at h1
        omega
      · have h1 := mem_cellsFrom ha
        omega
  · intro c hc
    unfold memPut at hc
    rcases List.mem_append.1 hc with hc | hc
    · rcases List.mem_append.1 hc with hc | hc
      · exact hb c (List.mem_filter.1 hc).1
      · have := mem_cellsFrom hc
        omega
    · exact hb c (List.mem_filter.1 hc).1

/-- A block write over the whole of a memory leaves exactly the written cells. -/
theorem memPut_whole {w size : Nat} {m : Memory w} (h : Memory.wf size m) (vs : List (BitVec w))
    (hlen : vs.length = size) : memPut m 0 vs = cellsFrom 0 vs := by
  unfold memPut
  have h1 : m.filter (fun c => decide (c.1 < 0)) = [] := by simp
  have h2 : m.filter (fun c => decide (0 + vs.length ≤ c.1)) = [] := by
    rw [List.filter_eq_nil_iff]
    intro c hc
    have := h.2 c hc
    simp only [decide_eq_true_eq]
    omega
  rw [h1, h2]
  simp

/-- The empty memory has the canonical form. -/
theorem wf_nil {w : Nat} (size : Nat) : Memory.wf (w := w) size [] :=
  ⟨List.Pairwise.nil, by simp⟩

/-- A block read answers exactly the values of the elements it reads. -/
theorem memGetRange_ok {w : Nat} {element : Nat → Element} {m : Memory w} {base n : Nat}
    {vs : List (BitVec w)} (h : memGetRange element m base n = .ok vs) :
    vs.length = n ∧ ∀ i (hi : i < vs.length), memGet m (base + i) = some vs[i] := by
  induction n generalizing base vs with
  | zero =>
    simp only [memGetRange, Except.ok.injEq] at h
    subst h; simp
  | succ n ih =>
    simp only [memGetRange] at h
    split at h
    · cases h
    · next v hv =>
      split at h
      · next us hus =>
        cases h
        obtain ⟨hlen, hval⟩ := ih hus
        refine ⟨by simp [hlen], fun i hi => ?_⟩
        cases i with
        | zero => simpa using hv
        | succ i =>
          have := hval i (by simpa using hi)
          simpa [Nat.add_comm, Nat.add_left_comm] using this
      · cases h

/-- Where every element is written, a block read answers their values. -/
theorem memGetRange_of_written {w : Nat} (element : Nat → Element) (m : Memory w) (base : Nat)
    (vs : List (BitVec w)) (h : ∀ i (hi : i < vs.length), memGet m (base + i) = some vs[i]) :
    memGetRange element m base vs.length = .ok vs := by
  induction vs generalizing base with
  | nil => rfl
  | cons v vs ih =>
    have h0 := h 0 (by simp)
    have hs := ih (base + 1) fun i hi => by
      have := h (i + 1) (by simpa using hi)
      simpa [Nat.add_comm, Nat.add_left_comm] using this
    simp only [List.length_cons, memGetRange]
    simp only [Nat.add_zero, List.getElem_cons_zero] at h0
    rw [h0, hs]

/-- A block read names the first unwritten element it meets. -/
theorem memGetRange_error {w : Nat} {element : Nat → Element} {m : Memory w} {base n i : Nat}
    (hi : i < n) (hwritten : ∀ j < i, memGet m (base + j) ≠ none)
    (hnone : memGet m (base + i) = none) :
    memGetRange element m base n = .error (element (base + i)) := by
  induction n generalizing base i with
  | zero => omega
  | succ n ih =>
    simp only [memGetRange]
    cases i with
    | zero =>
      simp only [Nat.add_zero] at hnone ⊢
      rw [hnone]
    | succ i =>
      have h0 := hwritten 0 (by omega)
      simp only [Nat.add_zero] at h0
      obtain ⟨v, hv⟩ := Option.ne_none_iff_exists'.1 h0
      have := ih (base := base + 1) (i := i) (by omega)
        (fun j hj => by
          have := hwritten (j + 1) (by omega)
          simpa [Nat.add_comm, Nat.add_left_comm] using this)
        (by simpa [Nat.add_comm, Nat.add_left_comm] using hnone)
      rw [hv, this]
      simp [Nat.add_comm, Nat.add_left_comm]

end Sys2Proof.Machine
end

