-- ==== Sys2Proof/Laws/Packer.lean ====
section
/-! SUPPORT. The sizes of what the packer and the builders produce, and the Bit Packer on one group. -/

namespace Sys2Proof.Machine

@[simp] theorem pack16_length (s : List Symbol) : (pack16 s).length = 5 := rfl

@[simp] theorem unpack16_length (ws : List Word) : (unpack16 ws).length = 16 := rfl

/-- Every group packs to five words (42_bit_packer.md R201). -/
@[simp] theorem packGroups_length (g : Nat) (s : List Symbol) : (packGroups g s).length = 5 * g := by
  induction g generalizing s with
  | zero => rfl
  | succ g ih => simp [packGroups, ih]; omega

@[simp] theorem packSymbols_length (s : List Symbol) :
    (packSymbols s).length = 5 * groupsOf s.length := packGroups_length _ _

/-- Every group unpacks to 16 symbols (42_bit_packer.md R203). -/
@[simp] theorem unpackGroups_length (g : Nat) (ws : List Word) :
    (unpackGroups g ws).length = 16 * g := by
  induction g generalizing ws with
  | zero => rfl
  | succ g ih => simp [unpackGroups, ih]; omega

@[simp] theorem unpackSymbols_length (ws : List Word) (n : Nat) :
    (unpackSymbols ws n).length = n := by
  simp [unpackSymbols, groupsOf]; omega

/-- Bits 0 to 31 of the stream of a group (30_encoding.md R105). -/
theorem pack16_word0_bit (s : List Symbol) (k : Nat) (hk : k < 32) :
    ((pack16 s).getD 0 0#32).getLsbD k = (s.getD ((0 + k) / 10) 0#10).getLsbD ((0 + k) % 10) := by
  interval_cases k <;> simp [pack16]

/-- Bits 32 to 63 of the stream of a group (30_encoding.md R105). -/
theorem pack16_word1_bit (s : List Symbol) (k : Nat) (hk : k < 32) :
    ((pack16 s).getD 1 0#32).getLsbD k = (s.getD ((32 + k) / 10) 0#10).getLsbD ((32 + k) % 10) := by
  interval_cases k <;> simp [pack16]

/-- Bits 64 to 95 of the stream of a group (30_encoding.md R105). -/
theorem pack16_word2_bit (s : List Symbol) (k : Nat) (hk : k < 32) :
    ((pack16 s).getD 2 0#32).getLsbD k = (s.getD ((64 + k) / 10) 0#10).getLsbD ((64 + k) % 10) := by
  interval_cases k <;> simp [pack16]

/-- Bits 96 to 127 of the stream of a group (30_encoding.md R105). -/
theorem pack16_word3_bit (s : List Symbol) (k : Nat) (hk : k < 32) :
    ((pack16 s).getD 3 0#32).getLsbD k = (s.getD ((96 + k) / 10) 0#10).getLsbD ((96 + k) % 10) := by
  interval_cases k <;> simp [pack16]

/-- Bits 128 to 159 of the stream of a group (30_encoding.md R105). -/
theorem pack16_word4_bit (s : List Symbol) (k : Nat) (hk : k < 32) :
    ((pack16 s).getD 4 0#32).getLsbD k = (s.getD ((128 + k) / 10) 0#10).getLsbD ((128 + k) % 10) := by
  interval_cases k <;> simp [pack16]

/-- The 160 stream bits of a group: bit b is bit b mod 10 of symbol b div 10
(42_bit_packer.md R200). -/
theorem pack16_bit (s : List Symbol) (j k : Nat) (hj : j < 5) (hk : k < 32) :
    ((pack16 s).getD j 0#32).getLsbD k =
      (s.getD ((32 * j + k) / 10) 0#10).getLsbD ((32 * j + k) % 10) := by
  interval_cases j
  · exact pack16_word0_bit s k hk
  · exact pack16_word1_bit s k hk
  · exact pack16_word2_bit s k hk
  · exact pack16_word3_bit s k hk
  · exact pack16_word4_bit s k hk

/-- The symbols of five words: bit k of symbol i is stream bit 10 i + k (42_bit_packer.md R202). -/
theorem unpack16_bit (ws : List Word) (i k : Nat) (hi : i < 16) (hk : k < 10) :
    ((unpack16 ws).getD i 0#10).getLsbD k =
      (ws.getD ((10 * i + k) / 32) 0#32).getLsbD ((10 * i + k) % 32) := by
  interval_cases i <;>
    simp only [unpack16, List.getD_cons_zero, List.getD_cons_succ, BitVec.getLsbD_append,
      BitVec.getLsbD_extractLsb'] <;>
    interval_cases k <;> simp

@[simp] theorem lutSlot_length (p : Params) (b c : Nat) : (lutSlot p b c).length = 2 := by
  unfold lutSlot lutEntry
  split <;> rfl

/-- The table has 1024 words (41_lut_builder.md R189). -/
@[simp] theorem lutWords_length (p : Params) : (lutWords p).length = 1024 := by
  simp [lutWords, List.length_flatMap]

@[simp] theorem aviBody_length (vic : Byte) : (aviBody vic).length = 31 := rfl

@[simp] theorem channelBytes_length (p : Params) (vic : Byte) :
    (channelBytes p vic).length = 32 := rfl

@[simp] theorem headerStream_length (p : Params) (vs hs : Bool) :
    (headerStream p vs hs).length = 32 := by simp [headerStream]

@[simp] theorem lowStream_length (p : Params) (vic : Byte) : (lowStream p vic).length = 32 := by
  simp [lowStream]

@[simp] theorem highStream_length (p : Params) (vic : Byte) : (highStream p vic).length = 32 := by
  simp [highStream]

/-- INFO_MEM takes 40 words (44_infoframe_builder.md R257). -/
@[simp] theorem infoWords_length (p : Params) (vic : Byte) (hs vs : Bool) :
    (infoWords p vic hs vs).length = 40 := by
  simp [infoWords, groupsOf]

/-- A region channel packs to 5 ceil(L / 16) words (43_blanking_framer.md R233). -/
@[simp] theorem regionWords_length (p : Params) (r : HostRegs) (st : Streams) (kind : RegionKind)
    (di : Bool) (c : Channel) :
    (regionWords p r st kind di c).length = 5 * groupsOf (regionLength r) := by
  simp [regionWords]

/-- What an accepted timing satisfies, in numbers (43_blanking_framer.md R221). -/
theorem timingValid_iff (r : HostRegs) : timingValid r = true ↔
    r.hTotal.toNat = r.hActive.toNat + r.hFp.toNat + r.hPulse.toNat + r.hBp.toNat ∧
      10 ≤ r.hFp.toNat ∧ 12 ≤ r.hBp.toNat ∧ regionLength r ≤ 816 := by
  simp [timingValid, and_assoc]

/-- An accepted region fits its 256 words (43_blanking_framer.md R221). -/
theorem groupsOf_timing {r : HostRegs} (h : timingValid r = true) :
    5 * groupsOf (regionLength r) ≤ 255 := by
  have := ((timingValid_iff r).1 h).2.2.2
  unfold groupsOf
  omega

end Sys2Proof.Machine
end

