-- ==== Sys2Proof/Laws/Exec.lean ====
section
/-! SUPPORT. Everything the completion of a command can do, said once per meaning: the provers cite
these instead of unfolding the meanings. -/

namespace Sys2Proof.Machine

/-- What a completion can be: InvalidInput(code), the record of an unwritten source, or a success
that the meaning describes. -/
theorem execEnc_cases {s t : State} (h : execEnc s = .next t) :
    ((encDispIn (sources s).regs.encIn < -8 ∨ 8 < encDispIn (sources s).regs.encIn) ∧
      t = invalidInput .dispRange s) ∨
    ((-8 ≤ encDispIn (sources s).regs.encIn ∧ encDispIn (sources s).regs.encIn ≤ 8) ∧
      t = finish { s with
        encSymbol := (tmds (encValue (sources s).regs.encIn) (encDispIn (sources s).regs.encIn)).1
        encDispOut := twos5
          (tmds (encValue (sources s).regs.encIn) (encDispIn (sources s).regs.encIn)).2 }) := by
  simp only [execEnc] at h
  split at h <;> cases h
  · exact .inl ⟨‹_›, rfl⟩
  · refine .inr ⟨by omega, rfl⟩

/-- PACK: the count is too large, a source is unwritten, or the packed words are stored. -/
theorem execPack_cases {n : BitVec 16} {s t : State} (h : execPack n s = .next t) :
    (1024 < n.toNat ∧ t = invalidInput .packCount s) ∨
    (∃ e, n.toNat ≤ 1024 ∧ memGetRange .packIn (sources s).packIn 0 n.toNat = .error e ∧
      t = recordFault (.uninitRead e) s) ∨
    (∃ syms, n.toNat ≤ 1024 ∧ memGetRange .packIn (sources s).packIn 0 n.toNat = .ok syms ∧
      t = finish { s with packOut := memPut s.packOut 0 (packSymbols syms) }) := by
  simp only [execPack] at h
  split at h
  · cases h; exact .inl ⟨‹_›, rfl⟩
  · split at h <;> cases h
    · exact .inr (.inl ⟨_, by omega, ‹_›, rfl⟩)
    · exact .inr (.inr ⟨_, by omega, ‹_›, rfl⟩)

/-- UNPACK: the count is too large, a source is unwritten, or the symbols are stored. -/
theorem execUnpack_cases {n : BitVec 16} {s t : State} (h : execUnpack n s = .next t) :
    (1024 < n.toNat ∧ t = invalidInput .packCount s) ∨
    (∃ e, n.toNat ≤ 1024 ∧
      memGetRange .packOut (sources s).packOut 0 (5 * groupsOf n.toNat) = .error e ∧
      t = recordFault (.uninitRead e) s) ∨
    (∃ ws, n.toNat ≤ 1024 ∧
      memGetRange .packOut (sources s).packOut 0 (5 * groupsOf n.toNat) = .ok ws ∧
      t = finish { s with packIn := memPut s.packIn 0 (unpackSymbols ws n.toNat) }) := by
  simp only [execUnpack] at h
  split at h
  · cases h; exact .inl ⟨‹_›, rfl⟩
  · split at h <;> cases h
    · exact .inr (.inl ⟨_, by omega, ‹_›, rfl⟩)
    · exact .inr (.inr ⟨_, by omega, ‹_›, rfl⟩)

/-- BUILD_REGION: a check fails, a word of INFO_MEM is unwritten, or the region is stored, with the
streams of INFO_MEM when it has a data island. -/
theorem execBuildRegion_cases {kind : RegionKind} {di : Bool} {s t : State}
    (h : execBuildRegion kind di s = .next t) :
    (∃ code, regionError (sources s).regs (sources s).aviValid di = some code ∧
      t = invalidInput code s) ∨
    (∃ e, regionError (sources s).regs (sources s).aviValid di = none ∧ di = true ∧
      memGetRange .infoMem (sources s).infoMem 0 40 = .error e ∧
      t = recordFault (.uninitRead e) s) ∨
    (∃ ws, regionError (sources s).regs (sources s).aviValid di = none ∧ di = true ∧
      memGetRange .infoMem (sources s).infoMem 0 40 = .ok ws ∧
      t = storeRegion (streamsOf ws) kind di s) ∨
    (regionError (sources s).regs (sources s).aviValid di = none ∧ di = false ∧
      t = storeRegion noStreams kind di s) := by
  simp only [execBuildRegion] at h
  split at h
  · cases h; exact .inl ⟨_, ‹_›, rfl⟩
  · split at h
    · split at h <;> cases h
      · exact .inr (.inl ⟨_, ‹_›, ‹_›, ‹_›, rfl⟩)
      · exact .inr (.inr (.inl ⟨_, ‹_›, ‹_›, ‹_›, rfl⟩))
    · cases h
      exact .inr (.inr (.inr ⟨‹_›, by simp_all, rfl⟩))

/-- The checks of BUILD_REGION pass exactly when the timing is valid and, with a data island, the
length is whole groups, the pulse holds a packet and the packet is built (43_blanking_framer.md R221,
R232). -/
theorem regionError_eq_none {r : HostRegs} {avi di : Bool} :
    regionError r avi di = none ↔
      timingValid r = true ∧
        (di = true → regionLength r % 16 = 0 ∧ 32 ≤ r.hPulse.toNat ∧ avi = true) := by
  unfold regionError
  split
  · simp_all
  · split
    · simp_all
    · split
      · simp_all
      · split
        · simp_all
        · split <;> simp_all

/-- Where the three blocks of a region stand, its own channel's words read back. -/
theorem memGet_putRegion {p : Params} {r : HostRegs} {st : Streams} {kind : RegionKind} {di : Bool}
    {m : Memory 32} (hfit : 5 * groupsOf (regionLength r) ≤ 256) (c : Channel) (w : Nat)
    (hw : w < 5 * groupsOf (regionLength r)) :
    memGet (putRegion p r st kind di m) (regionBase (kindIndex kind) (channelIndex c) + w) =
      (regionWords p r st kind di c)[w]? := by
  have hlen := regionWords_length p r st kind di
  cases c
  · simp only [putRegion, regionBase, channelIndex]
    rw [memGet_memPut_outside _ _ _ _ (by omega), memGet_memPut_outside _ _ _ _ (by omega),
      memGet_memPut_inside _ _ _ _ (by rw [hlen]; exact hw), List.getElem?_eq_getElem]
  · simp only [putRegion, regionBase, channelIndex]
    rw [memGet_memPut_outside _ _ _ _ (by omega),
      memGet_memPut_inside _ _ _ _ (by rw [hlen]; exact hw), List.getElem?_eq_getElem]
  · simp only [putRegion, regionBase, channelIndex]
    rw [memGet_memPut_inside _ _ _ _ (by rw [hlen]; exact hw), List.getElem?_eq_getElem]

/-- A region leaves every element outside its three blocks alone. -/
theorem memGet_putRegion_outside {p : Params} {r : HostRegs} {st : Streams} {kind : RegionKind}
    {di : Bool} {m : Memory 32} (i : Nat)
    (h : ∀ c : Channel, i < regionBase (kindIndex kind) (channelIndex c) ∨
      regionBase (kindIndex kind) (channelIndex c) + 5 * groupsOf (regionLength r) ≤ i) :
    memGet (putRegion p r st kind di m) i = memGet m i := by
  have h0 := h .ch0
  have h1 := h .ch1
  have h2 := h .ch2
  simp only [channelIndex] at h0 h1 h2
  unfold putRegion
  rw [memGet_memPut_outside, memGet_memPut_outside, memGet_memPut_outside] <;> simpa

/-- A region that fits keeps the canonical form of REGION_MEM. -/
theorem putRegion_wf {p : Params} {r : HostRegs} {st : Streams} {kind : RegionKind} {di : Bool}
    {m : Memory 32} (hm : Memory.wf 3072 m) (hfit : 5 * groupsOf (regionLength r) ≤ 256) :
    Memory.wf 3072 (putRegion p r st kind di m) := by
  unfold putRegion
  refine memPut_wf (memPut_wf (memPut_wf hm _ _ ?_) _ _ ?_) _ _ ?_ <;>
    · simp only [regionWords_length, regionBase]
      cases kind <;> simp only [kindIndex] <;> omega

/-- Every completion answers a next state (45_command_control.md R271, R276). -/
theorem exec_next (i : Instr) (s : State) : ∃ t, exec i s = .next t := by
  cases i with
  | nop => exact ⟨_, rfl⟩
  | enc => simp only [exec, execEnc]; split <;> exact ⟨_, rfl⟩
  | buildLut => exact ⟨_, rfl⟩
  | buildAvi => exact ⟨_, rfl⟩
  | buildRegion kind di =>
    simp only [exec, execBuildRegion]
    split
    · exact ⟨_, rfl⟩
    · split
      · split <;> exact ⟨_, rfl⟩
      · exact ⟨_, rfl⟩
  | pack n =>
    simp only [exec, execPack]
    split
    · exact ⟨_, rfl⟩
    · split <;> exact ⟨_, rfl⟩
  | unpack n =>
    simp only [exec, execUnpack]
    split
    · exact ⟨_, rfl⟩
    · split <;> exact ⟨_, rfl⟩
  | reserved7 => exact ⟨_, rfl⟩
  | reserved8F op => exact ⟨_, rfl⟩

end Sys2Proof.Machine
end

