-- ==== Sys2Proof/Laws/State.lean ====
section
/-! SUPPORT. What each shared update of the state does to each field, and what the updates of STATUS
do to each of its fields.  All by rfl: no later proof unfolds a record update. -/

namespace Sys2Proof.Machine

@[simp] theorem issueCommand_status (w : Word) (s : State) :
    (issueCommand w s).status = statusIssued s.status := rfl
@[simp] theorem issueCommand_regs (w : Word) (s : State) :
    (issueCommand w s).regs = s.regs := rfl
@[simp] theorem issueCommand_encSymbol (w : Word) (s : State) :
    (issueCommand w s).encSymbol = s.encSymbol := rfl
@[simp] theorem issueCommand_encDispOut (w : Word) (s : State) :
    (issueCommand w s).encDispOut = s.encDispOut := rfl
@[simp] theorem issueCommand_lutMem (w : Word) (s : State) :
    (issueCommand w s).lutMem = s.lutMem := rfl
@[simp] theorem issueCommand_infoMem (w : Word) (s : State) :
    (issueCommand w s).infoMem = s.infoMem := rfl
@[simp] theorem issueCommand_regionMem (w : Word) (s : State) :
    (issueCommand w s).regionMem = s.regionMem := rfl
@[simp] theorem issueCommand_packIn (w : Word) (s : State) :
    (issueCommand w s).packIn = s.packIn := rfl
@[simp] theorem issueCommand_packOut (w : Word) (s : State) :
    (issueCommand w s).packOut = s.packOut := rfl
@[simp] theorem issueCommand_pending (w : Word) (s : State) :
    (issueCommand w s).pending = some { word := w, snap := takeSnapshot s } := rfl
@[simp] theorem issueCommand_fault (w : Word) (s : State) :
    (issueCommand w s).fault = s.fault := rfl
@[simp] theorem issueCommand_params (w : Word) (s : State) :
    (issueCommand w s).params = s.params := rfl
@[simp] theorem issueCommand_inbox (w : Word) (s : State) :
    (issueCommand w s).inbox = s.inbox := rfl
@[simp] theorem issueCommand_reply (w : Word) (s : State) :
    (issueCommand w s).reply = s.reply := rfl
@[simp] theorem issueCommand_draws (w : Word) (s : State) :
    (issueCommand w s).draws = s.draws := rfl

@[simp] theorem finish_status (s : State) :
    (finish s).status = statusDone s.status := rfl
@[simp] theorem finish_regs (s : State) :
    (finish s).regs = s.regs := rfl
@[simp] theorem finish_encSymbol (s : State) :
    (finish s).encSymbol = s.encSymbol := rfl
@[simp] theorem finish_encDispOut (s : State) :
    (finish s).encDispOut = s.encDispOut := rfl
@[simp] theorem finish_lutMem (s : State) :
    (finish s).lutMem = s.lutMem := rfl
@[simp] theorem finish_infoMem (s : State) :
    (finish s).infoMem = s.infoMem := rfl
@[simp] theorem finish_regionMem (s : State) :
    (finish s).regionMem = s.regionMem := rfl
@[simp] theorem finish_packIn (s : State) :
    (finish s).packIn = s.packIn := rfl
@[simp] theorem finish_packOut (s : State) :
    (finish s).packOut = s.packOut := rfl
@[simp] theorem finish_pending (s : State) :
    (finish s).pending = none := rfl
@[simp] theorem finish_fault (s : State) :
    (finish s).fault = s.fault := rfl
@[simp] theorem finish_params (s : State) :
    (finish s).params = s.params := rfl
@[simp] theorem finish_inbox (s : State) :
    (finish s).inbox = s.inbox := rfl
@[simp] theorem finish_reply (s : State) :
    (finish s).reply = s.reply := rfl
@[simp] theorem finish_draws (s : State) :
    (finish s).draws = s.draws := rfl

@[simp] theorem invalidInput_status (code : ErrCode) (s : State) :
    (invalidInput code s).status = statusDone (statusInvalid code s.status) := rfl
@[simp] theorem invalidInput_regs (code : ErrCode) (s : State) :
    (invalidInput code s).regs = s.regs := rfl
@[simp] theorem invalidInput_encSymbol (code : ErrCode) (s : State) :
    (invalidInput code s).encSymbol = s.encSymbol := rfl
@[simp] theorem invalidInput_encDispOut (code : ErrCode) (s : State) :
    (invalidInput code s).encDispOut = s.encDispOut := rfl
@[simp] theorem invalidInput_lutMem (code : ErrCode) (s : State) :
    (invalidInput code s).lutMem = s.lutMem := rfl
@[simp] theorem invalidInput_infoMem (code : ErrCode) (s : State) :
    (invalidInput code s).infoMem = s.infoMem := rfl
@[simp] theorem invalidInput_regionMem (code : ErrCode) (s : State) :
    (invalidInput code s).regionMem = s.regionMem := rfl
@[simp] theorem invalidInput_packIn (code : ErrCode) (s : State) :
    (invalidInput code s).packIn = s.packIn := rfl
@[simp] theorem invalidInput_packOut (code : ErrCode) (s : State) :
    (invalidInput code s).packOut = s.packOut := rfl
@[simp] theorem invalidInput_pending (code : ErrCode) (s : State) :
    (invalidInput code s).pending = none := rfl
@[simp] theorem invalidInput_fault (code : ErrCode) (s : State) :
    (invalidInput code s).fault = s.fault := rfl
@[simp] theorem invalidInput_params (code : ErrCode) (s : State) :
    (invalidInput code s).params = s.params := rfl
@[simp] theorem invalidInput_inbox (code : ErrCode) (s : State) :
    (invalidInput code s).inbox = s.inbox := rfl
@[simp] theorem invalidInput_reply (code : ErrCode) (s : State) :
    (invalidInput code s).reply = s.reply := rfl
@[simp] theorem invalidInput_draws (code : ErrCode) (s : State) :
    (invalidInput code s).draws = s.draws := rfl

@[simp] theorem recordFault_status (f : Fault) (s : State) :
    (recordFault f s).status = s.status := rfl
@[simp] theorem recordFault_regs (f : Fault) (s : State) :
    (recordFault f s).regs = s.regs := rfl
@[simp] theorem recordFault_encSymbol (f : Fault) (s : State) :
    (recordFault f s).encSymbol = s.encSymbol := rfl
@[simp] theorem recordFault_encDispOut (f : Fault) (s : State) :
    (recordFault f s).encDispOut = s.encDispOut := rfl
@[simp] theorem recordFault_lutMem (f : Fault) (s : State) :
    (recordFault f s).lutMem = s.lutMem := rfl
@[simp] theorem recordFault_infoMem (f : Fault) (s : State) :
    (recordFault f s).infoMem = s.infoMem := rfl
@[simp] theorem recordFault_regionMem (f : Fault) (s : State) :
    (recordFault f s).regionMem = s.regionMem := rfl
@[simp] theorem recordFault_packIn (f : Fault) (s : State) :
    (recordFault f s).packIn = s.packIn := rfl
@[simp] theorem recordFault_packOut (f : Fault) (s : State) :
    (recordFault f s).packOut = s.packOut := rfl
@[simp] theorem recordFault_pending (f : Fault) (s : State) :
    (recordFault f s).pending = s.pending := rfl
@[simp] theorem recordFault_fault (f : Fault) (s : State) :
    (recordFault f s).fault = some f := rfl
@[simp] theorem recordFault_params (f : Fault) (s : State) :
    (recordFault f s).params = s.params := rfl
@[simp] theorem recordFault_inbox (f : Fault) (s : State) :
    (recordFault f s).inbox = s.inbox := rfl
@[simp] theorem recordFault_reply (f : Fault) (s : State) :
    (recordFault f s).reply = s.reply := rfl
@[simp] theorem recordFault_draws (f : Fault) (s : State) :
    (recordFault f s).draws = s.draws := rfl

@[simp] theorem answer_status (v : Word) (s : State) :
    (answer v s).status = s.status := rfl
@[simp] theorem answer_regs (v : Word) (s : State) :
    (answer v s).regs = s.regs := rfl
@[simp] theorem answer_encSymbol (v : Word) (s : State) :
    (answer v s).encSymbol = s.encSymbol := rfl
@[simp] theorem answer_encDispOut (v : Word) (s : State) :
    (answer v s).encDispOut = s.encDispOut := rfl
@[simp] theorem answer_lutMem (v : Word) (s : State) :
    (answer v s).lutMem = s.lutMem := rfl
@[simp] theorem answer_infoMem (v : Word) (s : State) :
    (answer v s).infoMem = s.infoMem := rfl
@[simp] theorem answer_regionMem (v : Word) (s : State) :
    (answer v s).regionMem = s.regionMem := rfl
@[simp] theorem answer_packIn (v : Word) (s : State) :
    (answer v s).packIn = s.packIn := rfl
@[simp] theorem answer_packOut (v : Word) (s : State) :
    (answer v s).packOut = s.packOut := rfl
@[simp] theorem answer_pending (v : Word) (s : State) :
    (answer v s).pending = s.pending := rfl
@[simp] theorem answer_fault (v : Word) (s : State) :
    (answer v s).fault = s.fault := rfl
@[simp] theorem answer_params (v : Word) (s : State) :
    (answer v s).params = s.params := rfl
@[simp] theorem answer_inbox (v : Word) (s : State) :
    (answer v s).inbox = s.inbox := rfl
@[simp] theorem answer_reply (v : Word) (s : State) :
    (answer v s).reply = some v := rfl
@[simp] theorem answer_draws (v : Word) (s : State) :
    (answer v s).draws = s.draws := rfl

@[simp] theorem answerDrawn_status (loc : Loc) (s : State) :
    (answerDrawn loc s).status = s.status := rfl
@[simp] theorem answerDrawn_regs (loc : Loc) (s : State) :
    (answerDrawn loc s).regs = s.regs := rfl
@[simp] theorem answerDrawn_encSymbol (loc : Loc) (s : State) :
    (answerDrawn loc s).encSymbol = s.encSymbol := rfl
@[simp] theorem answerDrawn_encDispOut (loc : Loc) (s : State) :
    (answerDrawn loc s).encDispOut = s.encDispOut := rfl
@[simp] theorem answerDrawn_lutMem (loc : Loc) (s : State) :
    (answerDrawn loc s).lutMem = s.lutMem := rfl
@[simp] theorem answerDrawn_infoMem (loc : Loc) (s : State) :
    (answerDrawn loc s).infoMem = s.infoMem := rfl
@[simp] theorem answerDrawn_regionMem (loc : Loc) (s : State) :
    (answerDrawn loc s).regionMem = s.regionMem := rfl
@[simp] theorem answerDrawn_packIn (loc : Loc) (s : State) :
    (answerDrawn loc s).packIn = s.packIn := rfl
@[simp] theorem answerDrawn_packOut (loc : Loc) (s : State) :
    (answerDrawn loc s).packOut = s.packOut := rfl
@[simp] theorem answerDrawn_pending (loc : Loc) (s : State) :
    (answerDrawn loc s).pending = s.pending := rfl
@[simp] theorem answerDrawn_fault (loc : Loc) (s : State) :
    (answerDrawn loc s).fault = s.fault := rfl
@[simp] theorem answerDrawn_params (loc : Loc) (s : State) :
    (answerDrawn loc s).params = s.params := rfl
@[simp] theorem answerDrawn_inbox (loc : Loc) (s : State) :
    (answerDrawn loc s).inbox = s.inbox := rfl
@[simp] theorem answerDrawn_reply (loc : Loc) (s : State) :
    (answerDrawn loc s).reply = some (drawnWord loc (Config.freeDraw s.draws)) := rfl
@[simp] theorem answerDrawn_draws (loc : Loc) (s : State) :
    (answerDrawn loc s).draws = s.draws + 1 := rfl

@[simp] theorem writeTiming_status (r : HostRegs) (s : State) :
    (writeTiming r s).status = statusTimingWritten s.status := rfl
@[simp] theorem writeTiming_regs (r : HostRegs) (s : State) :
    (writeTiming r s).regs = r := rfl
@[simp] theorem writeTiming_encSymbol (r : HostRegs) (s : State) :
    (writeTiming r s).encSymbol = s.encSymbol := rfl
@[simp] theorem writeTiming_encDispOut (r : HostRegs) (s : State) :
    (writeTiming r s).encDispOut = s.encDispOut := rfl
@[simp] theorem writeTiming_lutMem (r : HostRegs) (s : State) :
    (writeTiming r s).lutMem = s.lutMem := rfl
@[simp] theorem writeTiming_infoMem (r : HostRegs) (s : State) :
    (writeTiming r s).infoMem = s.infoMem := rfl
@[simp] theorem writeTiming_regionMem (r : HostRegs) (s : State) :
    (writeTiming r s).regionMem = s.regionMem := rfl
@[simp] theorem writeTiming_packIn (r : HostRegs) (s : State) :
    (writeTiming r s).packIn = s.packIn := rfl
@[simp] theorem writeTiming_packOut (r : HostRegs) (s : State) :
    (writeTiming r s).packOut = s.packOut := rfl
@[simp] theorem writeTiming_pending (r : HostRegs) (s : State) :
    (writeTiming r s).pending = s.pending := rfl
@[simp] theorem writeTiming_fault (r : HostRegs) (s : State) :
    (writeTiming r s).fault = s.fault := rfl
@[simp] theorem writeTiming_params (r : HostRegs) (s : State) :
    (writeTiming r s).params = s.params := rfl
@[simp] theorem writeTiming_inbox (r : HostRegs) (s : State) :
    (writeTiming r s).inbox = s.inbox := rfl
@[simp] theorem writeTiming_reply (r : HostRegs) (s : State) :
    (writeTiming r s).reply = s.reply := rfl
@[simp] theorem writeTiming_draws (r : HostRegs) (s : State) :
    (writeTiming r s).draws = s.draws := rfl

@[simp] theorem writePacketReg_status (r : HostRegs) (s : State) :
    (writePacketReg r s).status = statusPacketWritten s.status := rfl
@[simp] theorem writePacketReg_regs (r : HostRegs) (s : State) :
    (writePacketReg r s).regs = r := rfl
@[simp] theorem writePacketReg_encSymbol (r : HostRegs) (s : State) :
    (writePacketReg r s).encSymbol = s.encSymbol := rfl
@[simp] theorem writePacketReg_encDispOut (r : HostRegs) (s : State) :
    (writePacketReg r s).encDispOut = s.encDispOut := rfl
@[simp] theorem writePacketReg_lutMem (r : HostRegs) (s : State) :
    (writePacketReg r s).lutMem = s.lutMem := rfl
@[simp] theorem writePacketReg_infoMem (r : HostRegs) (s : State) :
    (writePacketReg r s).infoMem = s.infoMem := rfl
@[simp] theorem writePacketReg_regionMem (r : HostRegs) (s : State) :
    (writePacketReg r s).regionMem = s.regionMem := rfl
@[simp] theorem writePacketReg_packIn (r : HostRegs) (s : State) :
    (writePacketReg r s).packIn = s.packIn := rfl
@[simp] theorem writePacketReg_packOut (r : HostRegs) (s : State) :
    (writePacketReg r s).packOut = s.packOut := rfl
@[simp] theorem writePacketReg_pending (r : HostRegs) (s : State) :
    (writePacketReg r s).pending = s.pending := rfl
@[simp] theorem writePacketReg_fault (r : HostRegs) (s : State) :
    (writePacketReg r s).fault = s.fault := rfl
@[simp] theorem writePacketReg_params (r : HostRegs) (s : State) :
    (writePacketReg r s).params = s.params := rfl
@[simp] theorem writePacketReg_inbox (r : HostRegs) (s : State) :
    (writePacketReg r s).inbox = s.inbox := rfl
@[simp] theorem writePacketReg_reply (r : HostRegs) (s : State) :
    (writePacketReg r s).reply = s.reply := rfl
@[simp] theorem writePacketReg_draws (r : HostRegs) (s : State) :
    (writePacketReg r s).draws = s.draws := rfl

@[simp] theorem resetCore_status (s : State) :
    (resetCore s).status = State.reset.status := rfl
@[simp] theorem resetCore_regs (s : State) :
    (resetCore s).regs = State.reset.regs := rfl
@[simp] theorem resetCore_encSymbol (s : State) :
    (resetCore s).encSymbol = State.reset.encSymbol := rfl
@[simp] theorem resetCore_encDispOut (s : State) :
    (resetCore s).encDispOut = State.reset.encDispOut := rfl
@[simp] theorem resetCore_lutMem (s : State) :
    (resetCore s).lutMem = State.reset.lutMem := rfl
@[simp] theorem resetCore_infoMem (s : State) :
    (resetCore s).infoMem = State.reset.infoMem := rfl
@[simp] theorem resetCore_regionMem (s : State) :
    (resetCore s).regionMem = State.reset.regionMem := rfl
@[simp] theorem resetCore_packIn (s : State) :
    (resetCore s).packIn = State.reset.packIn := rfl
@[simp] theorem resetCore_packOut (s : State) :
    (resetCore s).packOut = State.reset.packOut := rfl
@[simp] theorem resetCore_pending (s : State) :
    (resetCore s).pending = State.reset.pending := rfl
@[simp] theorem resetCore_fault (s : State) :
    (resetCore s).fault = State.reset.fault := rfl
@[simp] theorem resetCore_params (s : State) :
    (resetCore s).params = s.params := rfl
@[simp] theorem resetCore_inbox (s : State) :
    (resetCore s).inbox = s.inbox := rfl
@[simp] theorem resetCore_reply (s : State) :
    (resetCore s).reply = State.reset.reply := rfl
@[simp] theorem resetCore_draws (s : State) :
    (resetCore s).draws = s.draws := rfl

@[simp] theorem statusIssued_busy (st : Status) :
    (statusIssued st).busy = true := rfl
@[simp] theorem statusIssued_err (st : Status) :
    (statusIssued st).err = false := rfl
@[simp] theorem statusIssued_aviValid (st : Status) :
    (statusIssued st).aviValid = st.aviValid := rfl
@[simp] theorem statusIssued_lutValid (st : Status) :
    (statusIssued st).lutValid = st.lutValid := rfl
@[simp] theorem statusIssued_errCode (st : Status) :
    (statusIssued st).errCode = 0 := rfl
@[simp] theorem statusIssued_regionValid (st : Status) :
    (statusIssued st).regionValid = st.regionValid := rfl
@[simp] theorem statusIssued_regionDi (st : Status) :
    (statusIssued st).regionDi = st.regionDi := rfl

@[simp] theorem statusDone_busy (st : Status) :
    (statusDone st).busy = false := rfl
@[simp] theorem statusDone_err (st : Status) :
    (statusDone st).err = st.err := rfl
@[simp] theorem statusDone_aviValid (st : Status) :
    (statusDone st).aviValid = st.aviValid := rfl
@[simp] theorem statusDone_lutValid (st : Status) :
    (statusDone st).lutValid = st.lutValid := rfl
@[simp] theorem statusDone_errCode (st : Status) :
    (statusDone st).errCode = st.errCode := rfl
@[simp] theorem statusDone_regionValid (st : Status) :
    (statusDone st).regionValid = st.regionValid := rfl
@[simp] theorem statusDone_regionDi (st : Status) :
    (statusDone st).regionDi = st.regionDi := rfl

@[simp] theorem statusInvalid_busy (code : ErrCode) (st : Status) :
    (statusInvalid code st).busy = st.busy := rfl
@[simp] theorem statusInvalid_err (code : ErrCode) (st : Status) :
    (statusInvalid code st).err = true := rfl
@[simp] theorem statusInvalid_aviValid (code : ErrCode) (st : Status) :
    (statusInvalid code st).aviValid = st.aviValid := rfl
@[simp] theorem statusInvalid_lutValid (code : ErrCode) (st : Status) :
    (statusInvalid code st).lutValid = st.lutValid := rfl
@[simp] theorem statusInvalid_errCode (code : ErrCode) (st : Status) :
    (statusInvalid code st).errCode = errCodeBits code := rfl
@[simp] theorem statusInvalid_regionValid (code : ErrCode) (st : Status) :
    (statusInvalid code st).regionValid = st.regionValid := rfl
@[simp] theorem statusInvalid_regionDi (code : ErrCode) (st : Status) :
    (statusInvalid code st).regionDi = st.regionDi := rfl

@[simp] theorem statusLutBuilt_busy (st : Status) :
    (statusLutBuilt st).busy = st.busy := rfl
@[simp] theorem statusLutBuilt_err (st : Status) :
    (statusLutBuilt st).err = st.err := rfl
@[simp] theorem statusLutBuilt_aviValid (st : Status) :
    (statusLutBuilt st).aviValid = st.aviValid := rfl
@[simp] theorem statusLutBuilt_lutValid (st : Status) :
    (statusLutBuilt st).lutValid = true := rfl
@[simp] theorem statusLutBuilt_errCode (st : Status) :
    (statusLutBuilt st).errCode = st.errCode := rfl
@[simp] theorem statusLutBuilt_regionValid (st : Status) :
    (statusLutBuilt st).regionValid = st.regionValid := rfl
@[simp] theorem statusLutBuilt_regionDi (st : Status) :
    (statusLutBuilt st).regionDi = st.regionDi := rfl

@[simp] theorem statusAviBuilt_busy (st : Status) :
    (statusAviBuilt st).busy = st.busy := rfl
@[simp] theorem statusAviBuilt_err (st : Status) :
    (statusAviBuilt st).err = st.err := rfl
@[simp] theorem statusAviBuilt_aviValid (st : Status) :
    (statusAviBuilt st).aviValid = true := rfl
@[simp] theorem statusAviBuilt_lutValid (st : Status) :
    (statusAviBuilt st).lutValid = st.lutValid := rfl
@[simp] theorem statusAviBuilt_errCode (st : Status) :
    (statusAviBuilt st).errCode = st.errCode := rfl
@[simp] theorem statusAviBuilt_regionValid (st : Status) :
    (statusAviBuilt st).regionValid = st.regionValid := rfl
@[simp] theorem statusAviBuilt_regionDi (st : Status) :
    (statusAviBuilt st).regionDi = st.regionDi := rfl

@[simp] theorem statusRegionBuilt_busy (k : Nat) (di : Bool) (st : Status) :
    (statusRegionBuilt k di st).busy = st.busy := rfl
@[simp] theorem statusRegionBuilt_err (k : Nat) (di : Bool) (st : Status) :
    (statusRegionBuilt k di st).err = st.err := rfl
@[simp] theorem statusRegionBuilt_aviValid (k : Nat) (di : Bool) (st : Status) :
    (statusRegionBuilt k di st).aviValid = st.aviValid := rfl
@[simp] theorem statusRegionBuilt_lutValid (k : Nat) (di : Bool) (st : Status) :
    (statusRegionBuilt k di st).lutValid = st.lutValid := rfl
@[simp] theorem statusRegionBuilt_errCode (k : Nat) (di : Bool) (st : Status) :
    (statusRegionBuilt k di st).errCode = st.errCode := rfl
@[simp] theorem statusRegionBuilt_regionValid (k : Nat) (di : Bool) (st : Status) :
    (statusRegionBuilt k di st).regionValid = putRegionBit st.regionValid k true := rfl
@[simp] theorem statusRegionBuilt_regionDi (k : Nat) (di : Bool) (st : Status) :
    (statusRegionBuilt k di st).regionDi = putRegionBit st.regionDi k di := rfl

@[simp] theorem statusTimingWritten_busy (st : Status) :
    (statusTimingWritten st).busy = st.busy := rfl
@[simp] theorem statusTimingWritten_err (st : Status) :
    (statusTimingWritten st).err = st.err := rfl
@[simp] theorem statusTimingWritten_aviValid (st : Status) :
    (statusTimingWritten st).aviValid = st.aviValid := rfl
@[simp] theorem statusTimingWritten_lutValid (st : Status) :
    (statusTimingWritten st).lutValid = st.lutValid := rfl
@[simp] theorem statusTimingWritten_errCode (st : Status) :
    (statusTimingWritten st).errCode = st.errCode := rfl
@[simp] theorem statusTimingWritten_regionValid (st : Status) :
    (statusTimingWritten st).regionValid = 0 := rfl
@[simp] theorem statusTimingWritten_regionDi (st : Status) :
    (statusTimingWritten st).regionDi = st.regionDi := rfl

@[simp] theorem statusPacketWritten_busy (st : Status) :
    (statusPacketWritten st).busy = st.busy := rfl
@[simp] theorem statusPacketWritten_err (st : Status) :
    (statusPacketWritten st).err = st.err := rfl
@[simp] theorem statusPacketWritten_aviValid (st : Status) :
    (statusPacketWritten st).aviValid = false := rfl
@[simp] theorem statusPacketWritten_lutValid (st : Status) :
    (statusPacketWritten st).lutValid = st.lutValid := rfl
@[simp] theorem statusPacketWritten_errCode (st : Status) :
    (statusPacketWritten st).errCode = st.errCode := rfl
@[simp] theorem statusPacketWritten_regionValid (st : Status) :
    (statusPacketWritten st).regionValid = 0 := rfl
@[simp] theorem statusPacketWritten_regionDi (st : Status) :
    (statusPacketWritten st).regionDi = st.regionDi := rfl

@[simp] theorem takeSnapshot_regs (s : State) : (takeSnapshot s).regs = s.regs := rfl
@[simp] theorem takeSnapshot_aviValid (s : State) : (takeSnapshot s).aviValid = s.status.aviValid := rfl
@[simp] theorem takeSnapshot_infoMem (s : State) : (takeSnapshot s).infoMem = s.infoMem := rfl
@[simp] theorem takeSnapshot_packIn (s : State) : (takeSnapshot s).packIn = s.packIn := rfl
@[simp] theorem takeSnapshot_packOut (s : State) : (takeSnapshot s).packOut = s.packOut := rfl

end Sys2Proof.Machine
end

