-- ==== Sys2Proof/Laws/HostPort.lean ====
section
/-! SUPPORT. Everything a host access and a step can do, said once. -/

namespace Sys2Proof.Machine

/-- A guarded write is the fault while busy, and the write otherwise (60_exceptions.md R306). -/
theorem guardBusy_cases (reason : ContractReason) (s t : State) :
    (s.status.busy = true ∧ guardBusy reason s t = recordFault (.hostContract reason) s) ∨
      (s.status.busy = false ∧ guardBusy reason s t = t) := by
  unfold guardBusy
  cases s.status.busy <;> simp

/-- A legal read of a written location answers a free draw or its value, and one of an unwritten
element records the fault (20_memory.md R79; 60_exceptions.md R312). -/
theorem hostReadLoc_cases (loc : Loc) (s : State) :
    (∃ v, readLoc s loc = .ok v ∧ drawsFree s loc = true ∧ hostReadLoc loc s = answerDrawn loc s) ∨
    (∃ v, readLoc s loc = .ok v ∧ drawsFree s loc = false ∧ hostReadLoc loc s = answer v s) ∨
    (∃ e, readLoc s loc = .error e ∧ hostReadLoc loc s = recordFault (.uninitRead e) s) := by
  unfold hostReadLoc
  cases readLoc s loc <;> cases drawsFree s loc <;> simp

/-- A read is illegal, or reaches one location. -/
theorem hostRead_cases (width : Width) (a : Addr) (s : State) :
    (legalAccess width a = none ∧ hostRead width a s = recordFault (.busError a) s) ∨
      (∃ loc, legalAccess width a = some loc ∧ hostRead width a s = hostReadLoc loc s) := by
  unfold hostRead
  cases legalAccess width a <;> simp

/-- A write is illegal, or reaches one location. -/
theorem hostWrite_cases (width : Width) (a : Addr) (v : Word) (s : State) :
    (legalAccess width a = none ∧ hostWrite width a v s = recordFault (.busError a) s) ∨
      (∃ loc, legalAccess width a = some loc ∧ hostWrite width a v s = hostWriteLoc loc v s) := by
  unfold hostWrite
  cases legalAccess width a <;> simp

/-- A legal access is 32 bits wide, aligned and mapped (20_memory.md R71). -/
theorem legalAccess_eq_some {width : Width} {a : Addr} {loc : Loc} :
    legalAccess width a = some loc ↔
      width = .word ∧ a.toNat % 4 = 0 ∧ locate a.toNat = some loc := by
  unfold legalAccess
  split
  · next h => simp [h]
  · next h => simp; tauto

/-- Everything a step can do (45_command_control.md R277): one of four moves, from a state with no
fault recorded. -/
theorem step_cases {s t : State} (h : step s = .next t) :
    s.fault = none ∧
    ((s.inbox = [] ∧ coreTurn s = .next t) ∨
     (∃ rest, s.inbox = .core :: rest ∧ coreTurn { s with inbox := rest } = .next t) ∨
     (∃ op rest, s.inbox = .host op :: rest ∧ t = hostAccess op { s with inbox := rest }) ∨
     (∃ rest, s.inbox = .reset :: rest ∧ t = resetCore { s with inbox := rest })) := by
  unfold step runStep at h
  split at h
  · cases h
  · next hf =>
    refine ⟨hf, ?_⟩
    unfold takeMove at h
    split at h
    · next hi => exact .inl ⟨hi, h⟩
    · next rest hi => exact .inr (.inl ⟨rest, hi, h⟩)
    · next op rest hi => cases h; exact .inr (.inr (.inl ⟨op, rest, hi, rfl⟩))
    · next rest hi => cases h; exact .inr (.inr (.inr ⟨rest, hi, rfl⟩))

/-- The core's turn changes nothing, or completes the pending command (45_command_control.md R271). -/
theorem coreTurn_cases {s t : State} (h : coreTurn s = .next t) :
    (s.pending = none ∧ t = s) ∨
      (∃ p, s.pending = some p ∧ exec (decodeWord p.word) s = .next t) := by
  unfold coreTurn fetchCommand at h
  cases hp : s.pending with
  | none => simp only [hp] at h; cases h; exact .inl ⟨rfl, rfl⟩
  | some p => simp only [hp] at h; exact .inr ⟨p, rfl, h⟩

end Sys2Proof.Machine
end

