-- ==== Sys2Proof/Laws/PerInstr.lean ====
section
/-! SUPPORT. Statements about every command as syntax, with one lemma per constructor. -/

namespace Sys2Proof

/-- The OP field of a word built from its fields (30_encoding.md R111). -/
theorem cmdOp_cmdWord (count : BitVec 16) (di : Bool) (kind : BitVec 2) (op : BitVec 4) :
    cmdOp (cmdWord count di kind op) = op := by
  ext i hi
  simp only [cmdOp, cmdWord, BitVec.getElem_extractLsb', BitVec.getLsbD_append, Nat.zero_add, hi,
    if_true]
  rw [BitVec.getLsbD_eq_getElem hi]

/-- The opcode of a command's row; the row 0x8-0xF takes it from the command (30_encoding.md R111). -/
def rowOp : Instr → BitVec 4
  | .nop => 0x0#4
  | .enc => 0x1#4
  | .buildLut => 0x2#4
  | .buildAvi => 0x3#4
  | .buildRegion _ _ => 0x4#4
  | .pack _ => 0x5#4
  | .unpack _ => 0x6#4
  | .reserved7 => 0x7#4
  | .reserved8F op => op

end Sys2Proof

namespace Sys2Proof.Laws.EncodeOp

/-- The word of a well-formed command carries the opcode of its row, and 0 in the reserved bits 15:7
(30_encoding.md R111). -/
def Statement (i : Instr) : Prop :=
  i.wellFormed = true → cmdOp (encode i) = rowOp i ∧ (encode i).extractLsb' 7 9 = 0#9

theorem reserved_bits (count : BitVec 16) (di : Bool) (kind : BitVec 2) (op : BitVec 4) :
    (cmdWord count di kind op).extractLsb' 7 9 = 0#9 := by
  ext i hi
  have h0 : ¬ 7 + i < 4 := by omega
  have h1 : ¬ 7 + i - 4 < 2 := by omega
  have h2 : ¬ 7 + i - 4 - 2 < 1 := by omega
  have h3 : 7 + i - 4 - 2 - 1 < 9 := by omega
  rw [BitVec.getElem_extractLsb', cmdWord]
  simp only [BitVec.getLsbD_append, h0, h1, h2, h3, if_true, if_false, BitVec.getLsbD_zero,
    BitVec.getElem_zero]

theorem nop : Statement .nop := fun _ => ⟨cmdOp_cmdWord _ _ _ _, reserved_bits _ _ _ _⟩
theorem enc : Statement .enc := fun _ => ⟨cmdOp_cmdWord _ _ _ _, reserved_bits _ _ _ _⟩
theorem buildLut : Statement .buildLut := fun _ => ⟨cmdOp_cmdWord _ _ _ _, reserved_bits _ _ _ _⟩
theorem buildAvi : Statement .buildAvi := fun _ => ⟨cmdOp_cmdWord _ _ _ _, reserved_bits _ _ _ _⟩
theorem buildRegion (kind : RegionKind) (di : Bool) : Statement (.buildRegion kind di) :=
  fun _ => ⟨cmdOp_cmdWord _ _ _ _, reserved_bits _ _ _ _⟩
theorem pack (count : BitVec 16) : Statement (.pack count) :=
  fun _ => ⟨cmdOp_cmdWord _ _ _ _, reserved_bits _ _ _ _⟩
theorem unpack (count : BitVec 16) : Statement (.unpack count) :=
  fun _ => ⟨cmdOp_cmdWord _ _ _ _, reserved_bits _ _ _ _⟩
theorem reserved7 : Statement .reserved7 := fun _ => ⟨cmdOp_cmdWord _ _ _ _, reserved_bits _ _ _ _⟩
theorem reserved8F (op : BitVec 4) : Statement (.reserved8F op) :=
  fun _ => ⟨cmdOp_cmdWord _ _ _ _, reserved_bits _ _ _ _⟩

end Sys2Proof.Laws.EncodeOp
end

