-- ==== Sys2Proof/Tests/Slice0.lean ====
section
/-! SUPPORT. Tests of the model, each on one word or one step with an expected result from the spec,
and witnesses that the hypotheses of the obligations can be met. -/

namespace Sys2Proof.Tests

open Sys2Proof Sys2Proof.Machine

/-! ## Well-formedness and decoding (30_encoding.md R111, R114) -/

/-- The one check refuses the term it is for: row 0x8-0xF does not hold OP 3. -/
theorem test_wf_refuses : (Instr.reserved8F 0x3#4).wellFormed = false := by decide

theorem test_wf_accepts : (Instr.reserved8F 0x8#4).wellFormed = true := by decide

/-- The words below are written bit by bit: COUNT (16), reserved (9), DI, KIND (2), OP (4). -/
theorem test_decode_nop : decodeWord 0b0000000000000000_000000000_0_00_0000#32 = .nop := by decide

theorem test_decode_enc : decodeWord 0b0000000000000000_000000000_0_00_0001#32 = .enc := by decide

theorem test_decode_build_lut :
    decodeWord 0b0000000000000000_000000000_0_00_0010#32 = .buildLut := by decide

theorem test_decode_build_avi :
    decodeWord 0b0000000000000000_000000000_0_00_0011#32 = .buildAvi := by decide

theorem test_decode_build_region :
    decodeWord 0b0000000000000000_000000000_1_10_0100#32 = .buildRegion .vsActive true := by decide

theorem test_decode_pack :
    decodeWord 0b0000010000000001_000000000_0_00_0101#32 = .pack 1025#16 := by decide

theorem test_decode_unpack :
    decodeWord 0b0000000000010000_000000000_0_00_0110#32 = .unpack 16#16 := by decide

theorem test_decode_reserved7 :
    decodeWord 0b1000000000000000_000000001_0_00_0111#32 = .reserved7 := by decide

theorem test_decode_reserved8F :
    decodeWord 0b0000000000000000_111111111_1_11_1011#32 = .reserved8F 0xB#4 := by decide

/-- Bit 7 and the unused fields are ignored (R112; 95_test_vectors.md L2.6). -/
theorem test_decode_ignored : decodeWord 0xFFFF0080#32 = .nop ∧ decodeWord 0x00000081#32 = .enc := by
  decide

/-- A string longer than a command word, or with a bit above its length, is refused by name. -/
theorem test_decode_refuses :
    decodeTableWord 33 1 = none ∧ decodeTableWord 4 0x10 = none ∧
      decodeTableWord 32 0x00100005 = some (.pack 16#16) := by
  decide

/-- The words of 95_test_vectors.md P2 and P3. -/
theorem test_encode_words :
    encode (.pack 16#16) = 0x00100005#32 ∧ encode (.unpack 16#16) = 0x00100006#32 ∧
      encode (.buildRegion .vsExit false) = 0x00000034#32 ∧
      encode (.buildRegion .normal true) = 0x00000044#32 := by
  decide

/-! ## States the tests start from -/

/-- The next state of an outcome, if it is one. -/
def after (o : Host.Outcome State Fault Refusal) : Option State :=
  match o with
  | .next s => some s
  | _ => none

/-- The state after the host writes v at address a. -/
def wr (a : Addr) (v : Word) (s : State) : State := hostWrite .word a v s

/-- The state after the command word w is issued and completes. -/
def run (w : Word) (s : State) : Option State := after (step (s.withFetchWord 32 w.toNat))

/-- What a host read of address a answers. -/
def rd (a : Addr) (s : State) : Option Word := (hostRead .word a s).reply

/-- The registers of 95_test_vectors.md P3: 640x480 timing, VIC 1, both syncs active low. -/
def regsP3 : HostRegs := { HostRegs.reset with
  hActive := 640, hFp := 16, hPulse := 96, hBp := 48, hTotal := 800, vic := 1 }

/-- The reset state with the registers of P3 written. -/
def stP3 : State := { State.reset with regs := regsP3 }

/-- PACK_IN[i] = i + 1 for i in 0..15 (95_test_vectors.md P2). -/
def stP2 : State := { State.reset with
  packIn := cellsFrom 0 ((List.range 16).map fun i => BitVec.ofNat 10 (i + 1)) }

/-- PACK_OUT[0..4] as P2 leaves them. -/
def stP2out : State := { State.reset with
  packOut := cellsFrom 0 [0x00300801#32, 0x70180501#32, 0x28090200#32, 0x0D0300B0#32, 0x0400F038#32] }

/-! ## One step per command (95_test_vectors.md L2, L3) -/

/-- L2.6: a NOP clears an earlier error and keeps the validity bits. -/
theorem test_nop_clears_error :
    (run 0x00000000#32 { State.reset with
      status := { Status.reset with err := true, errCode := 3, lutValid := true } }).bind (rd 0x0004#16) =
        some 0x00000008#32 := by decide

/-- L2.1: v = 0xFF, d = -8 takes case C. -/
theorem test_enc_keep :
    (run 0x00000001#32 (wr 0x0008#16 0x000018FF#32 State.reset)).bind (rd 0x000C#16) =
      some 0x001E00FF#32 := by decide

/-- L2.1: d = +9 is DISP_RANGE, and ENC_OUT keeps its value. -/
theorem test_enc_range :
    (run 0x00000001#32 (wr 0x0008#16 0x00000900#32 State.reset)).map
      (fun t => (rd 0x0004#16 t, rd 0x000C#16 t)) = some (some 0x00000022#32, some 0x00000000#32) := by
  decide

/-- L2.2: colour 31 in bucket 8, whose value flips to 0xFE, at index 574. -/
theorem test_build_lut_entry :
    lutSlot defaultParams 8 31 = [0x000BFC00#32, 0x00000080#32] := by decide

/-- L2.2, L1.3: STATUS after BUILD_LUT from reset, and colour 0 in bucket 4 at 0x1400. -/
theorem test_build_lut_read :
    (run 0x00000002#32 State.reset).map (fun t => (rd 0x0004#16 t, rd 0x1400#16 t)) =
      some (some 0x00000008#32, some 0x300C01FF#32) := by decide +kernel

/-- L2.3: the words of 1..16, of which word 1 straddles symbols 3 and 6. -/
theorem test_pack_words :
    (run 0x00100005#32 stP2).map (fun t => (rd 0x9000#16 t, rd 0x9004#16 t, rd 0x9010#16 t)) =
      some (some 0x00300801#32, some 0x70180501#32, some 0x0400F038#32) := by decide

/-- L2.3: PACK 16 after reset faults at PACK_IN[0]. -/
theorem test_pack_unwritten :
    (run 0x00100005#32 State.reset).bind (·.fault) = some (.uninitRead (.packIn 0)) := by decide

/-- L3 P2: UNPACK 16 gives PACK_IN[0] = 1 and PACK_IN[15] = 16. -/
theorem test_unpack_entries :
    (run 0x00100006#32 stP2out).map (fun t => (rd 0x8000#16 t, rd 0x803C#16 t)) =
      some (some 1#32, some 16#32) := by decide

/-- L2.3: UNPACK 1025 is PACK_COUNT. -/
theorem test_unpack_count :
    (run 0x04010006#32 stP2out).bind (rd 0x0004#16) = some 0x00000072#32 := by decide

/-- L2.4: VIC = 1, SYNC_CFG = 0. -/
theorem test_build_avi_words :
    (run 0x00000003#32 stP3).map (fun t => (rd 0x2000#16 t, rd 0x2050#16 t, rd 0x2078#16 t)) =
      some (some 0x19C58EE4#32, some 0x29CA7163#32, some 0x29CA718E#32) := by decide

/-- L2.5: kind 3 without a data island, words 0, 10 and 49 of channel 0. -/
theorem test_build_region_words :
    (run 0x00000034#32 stP3).map (fun t => (rd 0x6400#16 t, rd 0x6428#16 t, rd 0x64C4#16 t)) =
      some (some 0xCAB2ACAB#32, some 0x15455154#32, some 0xB32CCAAE#32) := by decide +kernel

/-- L2.5: from reset the timing is not valid, whatever the command says. -/
theorem test_build_region_timing :
    (run 0x00000044#32 State.reset).bind (rd 0x0004#16) = some 0x00000032#32 := by decide

/-- L2.6: OP 7 and OP 0xF set ERRCODE 1. -/
theorem test_reserved7 :
    (run 0x00000007#32 State.reset).bind (rd 0x0004#16) = some 0x00000012#32 := by decide

theorem test_reserved8F :
    (run 0x0000000F#32 State.reset).bind (rd 0x0004#16) = some 0x00000012#32 := by decide

/-! ## Witnesses: states and operands that meet the hypotheses of each obligation, clause by clause, at
the ends of their ranges -/

/-- A state with the command word w pending, just issued, BUSY = 1. -/
def pendingOf (w : Word) (s : State) : State := issueCommand w s

/-- The reset state with ENC_IN written. -/
def stEnc (encIn : BitVec 13) : State := { State.reset with regs := { HostRegs.reset with encIn } }

/-- The reset state with the timing HA, FP, PU, BP, HT. -/
def stTiming (ha fp pu bp ht : BitVec 16) : State := { State.reset with
  regs := { HostRegs.reset with hActive := ha, hFp := fp, hPulse := pu, hBp := bp, hTotal := ht } }

/-- A state with AVI_VALID set. -/
def aviSet (s : State) : State := { s with status := { s.status with aviValid := true } }

/-- A state whose INFO_MEM holds n zero words. -/
def infoOf (n : Nat) (s : State) : State :=
  { s with infoMem := cellsFrom 0 (List.replicate n 0#32) }

theorem witness_DecodeEncodeRoundTrip :
    (Instr.reserved8F 0x8#4).wellFormed = true ∧ (Instr.reserved8F 0xF#4).wellFormed = true ∧
      (Instr.pack 0xFFFF#16).wellFormed = true := by decide

theorem witness_StepRunsPendingCommand (w : Word) :
    (pendingOf w State.reset).fault = none ∧
      (pendingOf w State.reset).pending = some ⟨w, takeSnapshot State.reset⟩ ∧
      (pendingOf w State.reset).inbox = [] ∧
      { pendingOf w State.reset with inbox := [.core] }.inbox = Event.core :: [] :=
  ⟨rfl, rfl, rfl, rfl⟩

theorem witness_StepFollowsInbox :
    (recordFault (.busError 0x0102#16) State.reset).fault = some (.busError 0x0102#16) ∧
      State.reset.fault = none ∧ State.reset.pending = none ∧ State.reset.inbox = [] ∧
      { State.reset with inbox := [.host (.read .word 0x0004#16)] }.inbox =
        Event.host (.read .word 0x0004#16) :: [] ∧
      { State.reset with inbox := [.reset] }.inbox = Event.reset :: [] ∧
      { State.reset with inbox := [.core] }.inbox = Event.core :: [] := by decide

theorem witness_ResetState (s : State) :
    State.reset = State.reset ∧ resetCore s = resetCore s := ⟨rfl, rfl⟩

/-- The first and the last element of the memories a reset leaves unwritten. -/
theorem witness_ResetLeavesMemoriesUnwritten :
    legalAccess .word 0x1000#16 = some (.lutMem 0) ∧ elementOf (.lutMem 0) = some (.lutMem 0) ∧
      legalAccess .word 0x94FC#16 = some (.packOut 319) ∧
      elementOf (.packOut 319) = some (.packOut 319) := by decide

/-- P2's PACK_IN is written, and the core's turn is a step that is no reset. -/
theorem witness_WrittenElementsStayWritten :
    step stP2 = .next stP2 ∧ resetNext stP2 = false ∧ memGet stP2.packIn 15 ≠ none ∧
      memGet { stP2 with lutMem := [(0, 0#32)] }.lutMem 0 ≠ none ∧
      memGet { stP2 with infoMem := [(39, 0#32)] }.infoMem 39 ≠ none ∧
      memGet { stP2 with regionMem := [(3071, 0#32)] }.regionMem 3071 ≠ none ∧
      memGet stP2out.packOut 4 ≠ none :=
  ⟨rfl, by decide, by decide, by decide, by decide, by decide, by decide⟩

/-- Both markers in case A, by d = 0 and by a tie, and cases B and C (95_test_vectors.md L2.1). -/
theorem witness_EncoderBalanceCases :
    ((0 : Int) = 0 ∨ onesOf 0x00#8 = zerosOf 0x00#8) ∧ markerBit 0x00#8 = true ∧
      markerBit 0xFF#8 = false ∧ onesOf 0x55#8 = zerosOf 0x55#8 ∧
      (¬((-8 : Int) = 0 ∨ onesOf 0x00#8 = zerosOf 0x00#8) ∧
        ((0 < (-8 : Int) ∧ zerosOf 0x00#8 < onesOf 0x00#8) ∨
          ((-8 : Int) < 0 ∧ onesOf 0x00#8 < zerosOf 0x00#8))) ∧
      (¬((8 : Int) = 0 ∨ onesOf 0x00#8 = zerosOf 0x00#8) ∧
        ¬((0 < (8 : Int) ∧ zerosOf 0x00#8 < onesOf 0x00#8) ∨
          ((8 : Int) < 0 ∧ onesOf 0x00#8 < zerosOf 0x00#8))) := by decide

theorem witness_EncoderBound :
    ((8 : Int) % 2 = 0 ∧ -8 ≤ (8 : Int) ∧ (8 : Int) ≤ 8) ∧
      ((-7 : Int) % 2 = 1 ∧ -7 ≤ (-7 : Int) ∧ (-7 : Int) ≤ 7) := by decide

theorem witness_EncoderNeverEmitsControl :
    (-8 ≤ (-8 : Int) ∧ (-8 : Int) ≤ 8) ∧ (-8 ≤ (8 : Int) ∧ (8 : Int) ≤ 8) := by decide

theorem witness_EncoderStructure :
    ((0 : Int) = 0 ∨ onesOf 0x00#8 = zerosOf 0x00#8) ∧ onesOf 0xAB#8 = zerosOf 0xAB#8 := by decide

/-- d = +8, -8 complete and d = +9, -9 do not (95_test_vectors.md L2.1). -/
theorem witness_EncCommand :
    ((sources (stEnc 0x0800#13)).regs.encIn.extractLsb' 8 5).toInt = 8 ∧
      ((sources (stEnc 0x1800#13)).regs.encIn.extractLsb' 8 5).toInt = -8 ∧
      ((sources (stEnc 0x0900#13)).regs.encIn.extractLsb' 8 5).toInt = 9 ∧
      ((sources (stEnc 0x1700#13)).regs.encIn.extractLsb' 8 5).toInt = -9 := by decide

theorem witness_EncOutReadsBack :
    encValue (sources (stEnc 0x08FF#13)).regs.encIn = 0xFF#8 ∧
      encDispIn (sources (stEnc 0x08FF#13)).regs.encIn = 8 ∧
      encDispIn (sources (stEnc 0x1800#13)).regs.encIn = -8 := by decide

/-- Colour 31, buckets 8 and 9, at the indexes 574 and 638 of 30_encoding.md R107. -/
theorem witness_BuildLutStoresTable :
    ((31#5).setWidth 10 <<< 1 ||| (8#4).setWidth 10 <<< 6).toNat = 574 ∧ (8#4).toNat ≤ 8 ∧
      ((31#5).setWidth 10 <<< 1 ||| (9#4).setWidth 10 <<< 6).toNat = 638 ∧ 8 < (9#4).toNat ∧
      defaultParams.depth5to8[31] = 0xFF#8 := by decide

theorem witness_LutEntriesClose : ∃ t : State, exec .buildLut State.reset = .next t ∧ (8 : Nat) ≤ 8 :=
  ⟨_, rfl, by decide⟩

theorem witness_PackedStreamBits :
    159 < 160 * (([0x3FF#10] : List Symbol).length + 15) / 16 := by decide

theorem witness_UnpackedStreamBits : 1023 < 1024 ∧ 9 < 10 := by decide

/-- One group, whose padded tail runs from position 1 to position 15. -/
theorem witness_PackRoundTrip :
    (List.replicate 5 0x00000000#32).length = 5 * groupsOf 1 ∧ 1 ≤ 15 ∧ 15 < 16 * groupsOf 1 := by decide

/-- PACK 1025; PACK 16 and PACK 0 with their sources written; the largest count. -/
theorem witness_PackCommand :
    1024 < (1025#16).toNat ∧
      ((16#16).toNat ≤ 1024 ∧
        ((List.range 16).map fun i => BitVec.ofNat 10 (i + 1)).length = (16#16).toNat ∧
        ∀ i < (16#16).toNat, memGet (sources stP2).packIn i =
          ((List.range 16).map fun i => BitVec.ofNat 10 (i + 1))[i]?) ∧
      (([] : List Symbol).length = (0#16).toNat ∧ (1024#16).toNat ≤ 1024) := by decide

/-- UNPACK 1025; UNPACK 16 and UNPACK 0 with their sources written. -/
theorem witness_UnpackCommand :
    1024 < (1025#16).toNat ∧
      ((16#16).toNat ≤ 1024 ∧
        [0x00300801#32, 0x70180501#32, 0x28090200#32, 0x0D0300B0#32, 0x0400F038#32].length =
          5 * (((16#16).toNat + 15) / 16) ∧
        ∀ i < 5, memGet (sources stP2out).packOut i =
          [0x00300801#32, 0x70180501#32, 0x28090200#32, 0x0D0300B0#32, 0x0400F038#32][i]?) ∧
      (([] : List Word).length = 5 * (((0#16).toNat + 15) / 16)) := by decide

theorem witness_PackThenUnpackRestores :
    (16#16).toNat ≤ 1024 ∧ ∀ i < (16#16).toNat, memGet stP2.packIn i ≠ none := by decide

theorem witness_BuildAviStoresStreams :
    regsP3 = (sources stP3).regs ∧
      ∀ k, (fun k => if k = 0 then
          0#8 - (headerByte stP3.params 0 + headerByte stP3.params 1 + headerByte stP3.params 2 +
            regsP3.vic)
        else if k = 4 then regsP3.vic else 0x00#8) k =
          (if k = 0 then
            0#8 - (headerByte stP3.params 0 + headerByte stP3.params 1 + headerByte stP3.params 2 +
              regsP3.vic)
            else if k = 4 then regsP3.vic else 0x00#8) :=
  ⟨rfl, fun _ => rfl⟩

/-- HA, FP, PU, BP and HT of a state's sources, as integers. -/
def intsOf (s : State) : List Int :=
  [(sources s).regs.hActive.toNat, (sources s).regs.hFp.toNat, (sources s).regs.hPulse.toNat,
    (sources s).regs.hBp.toNat, (sources s).regs.hTotal.toNat]

/-- The timing conditions of 43_blanking_framer.md R221 over the integers. -/
abbrev timingOk (ha fp pu bp ht : Int) : Prop :=
  ht = ha + fp + pu + bp ∧ 10 ≤ fp ∧ 12 ≤ bp ∧ ht - ha ≤ 816

/-- TIMING by each of its conditions: the sum, the front porch, the back porch, the length
(95_test_vectors.md L2.5). -/
theorem witness_RegionChecksInOrder_timing :
    (intsOf (stTiming 640 16 96 48 801) = [640, 16, 96, 48, 801] ∧ ¬timingOk 640 16 96 48 801) ∧
      (intsOf (stTiming 640 9 96 55 800) = [640, 9, 96, 55, 800] ∧ ¬timingOk 640 9 96 55 800) ∧
      (intsOf (stTiming 640 16 96 11 763) = [640, 16, 96, 11, 763] ∧ ¬timingOk 640 16 96 11 763) ∧
      (intsOf (stTiming 0 16 768 48 832) = [0, 16, 768, 48, 832] ∧ ¬timingOk 0 16 768 48 832) := by
  decide

theorem witness_RegionChecksInOrder_length :
    intsOf (stTiming 640 16 96 52 804) = [640, 16, 96, 52, 804] ∧ timingOk 640 16 96 52 804 ∧
      ((804 : Int) - 640) % 16 ≠ 0 := by decide

/-- The longest pulse that is too short for a packet, with a length of whole groups. -/
theorem witness_RegionChecksInOrder_pulse :
    intsOf (stTiming 640 16 31 49 736) = [640, 16, 31, 49, 736] ∧ timingOk 640 16 31 49 736 ∧
      ((736 : Int) - 640) % 16 = 0 ∧ (31 : Int) < 32 := by decide

theorem witness_RegionChecksInOrder_avi :
    intsOf (stTiming 640 16 32 48 736) = [640, 16, 32, 48, 736] ∧ timingOk 640 16 32 48 736 ∧
      ((736 : Int) - 640) % 16 = 0 ∧ 32 ≤ (32 : Int) ∧
      (sources (stTiming 640 16 32 48 736)).aviValid = false := by decide

/-- The natural numbers the hypotheses of RegionStored bound. -/
abbrev regionFits (r : HostRegs) (len : Nat) : Prop :=
  r.hTotal.toNat = r.hActive.toNat + r.hFp.toNat + r.hPulse.toNat + r.hBp.toNat ∧
    10 ≤ r.hFp.toNat ∧ 12 ≤ r.hBp.toNat ∧ len = r.hTotal.toNat - r.hActive.toNat ∧ len ≤ 816

/-- The shortest region without a data island (10 + 12 symbols) and the longest with one (816). -/
theorem witness_RegionStored :
    regionFits (sources (stTiming 0 10 0 12 22)).regs 22 ∧
      regionFits (sources (infoOf 40 (aviSet (stTiming 0 16 752 48 816)))).regs 816 ∧ 816 % 16 = 0 ∧
      32 ≤ (sources (infoOf 40 (aviSet (stTiming 0 16 752 48 816)))).regs.hPulse.toNat ∧
      (sources (infoOf 40 (aviSet (stTiming 0 16 752 48 816)))).aviValid = true ∧
      (List.replicate 40 0#32).length = 40 ∧
      ∀ i < 40, memGet (sources (infoOf 40 (aviSet (stTiming 0 16 752 48 816)))).infoMem i =
        (List.replicate 40 0#32)[i]? := by decide

/-- An accepted timing, with no pulse and with one of 752 symbols, at its first and last position. -/
theorem witness_SegmentLayout :
    timingValid (stTiming 0 10 0 12 22).regs = true ∧
      0 < regionLength (stTiming 0 10 0 12 22).regs ∧
      timingValid (stTiming 0 16 752 48 816).regs = true ∧
      815 < regionLength (stTiming 0 16 752 48 816).regs := by decide

theorem witness_ChannelContents :
    hsLevel regsP3 16 = hsLevel regsP3 16 ∧ vsLevel regsP3 .vsEnter 15 = vsLevel regsP3 .vsEnter 15 :=
  ⟨rfl, rfl⟩

/-- The first and the last position of the body of P3. -/
theorem witness_SyncLevelsByPosition :
    regsP3.hFp.toNat = 16 ∧ regsP3.hPulse.toNat = 96 ∧ 16 ≤ 16 ∧ 111 < 16 + 96 := by decide

theorem witness_PacketBody :
    (31 < regsP3.hPulse.toNat ∧ 31 < 32) ∧ (95 < regsP3.hPulse.toNat ∧ 32 ≤ 95) ∧
      32 < regsP3.hPulse.toNat := by decide

theorem witness_ChannelsOneTwoKindFree : Channel.ch1 ≠ .ch0 ∧ Channel.ch2 ≠ .ch0 := by decide

/-- Kinds 0 and 3 of P3, the first with a data island. -/
theorem witness_RegionBuildsCommute :
    RegionKind.normal ≠ .vsExit ∧
      regionError (infoOf 40 (aviSet stP3)).regs (infoOf 40 (aviSet stP3)).status.aviValid true = none ∧
      regionError (infoOf 40 (aviSet stP3)).regs (infoOf 40 (aviSet stP3)).status.aviValid false =
        none ∧
      ∀ i < 40, memGet (infoOf 40 (aviSet stP3)).infoMem i ≠ none := by decide

theorem witness_NopCommand : cmdOp 0xFFFFFFF0#32 = 0x0#4 := by decide

theorem witness_ReservedCommand :
    7 ≤ (cmdOp 0x00000007#32).toNat ∧ 7 ≤ (cmdOp 0xFFFFFFFF#32).toNat := by decide

theorem witness_IssueTakesSnapshot : State.reset.status.busy = false := by decide

theorem witness_InvalidInputRecordsCode :
    (7#4 = (match ErrCode.packCount with
      | .reservedOp => 1#4
      | .dispRange => 2#4
      | .timing => 3#4
      | .diLength => 4#4
      | .diPulse => 5#4
      | .aviNotBuilt => 6#4
      | .packCount => 7#4)) := by decide

/-- A reserved command sets ERR. -/
theorem witness_ErrorsWriteNothing :
    exec .reserved7 State.reset = .next (invalidInput .reservedOp State.reset) ∧
      State.reset.status.err = false ∧ (invalidInput .reservedOp State.reset).status.err = true :=
  ⟨rfl, rfl, rfl⟩

/-- PACK 16 with PACK_IN[15] unwritten and PACK 1 with PACK_IN[0]; UNPACK 17 with PACK_OUT[5]
unwritten; BUILD_REGION with none and with 39 of the words of INFO_MEM written. -/
theorem witness_UnwrittenSourcesFault :
    ((16#16).toNat ≤ 1024 ∧ 15 < (16#16).toNat ∧
      memGet (sources { stP2 with packIn := stP2.packIn.take 15 }).packIn 15 = none ∧
      ∀ j < 15, memGet (sources { stP2 with packIn := stP2.packIn.take 15 }).packIn j ≠ none) ∧
      (0 < (1#16).toNat ∧ memGet (sources State.reset).packIn 0 = none) ∧
      ((17#16).toNat ≤ 1024 ∧ 5 < 5 * (((17#16).toNat + 15) / 16) ∧
        memGet (sources stP2out).packOut 5 = none ∧
        ∀ j < 5, memGet (sources stP2out).packOut j ≠ none) ∧
      (regionError (sources (infoOf 39 (aviSet stP3))).regs (sources (infoOf 39 (aviSet stP3))).aviValid
          true = none ∧
        memGet (sources (infoOf 39 (aviSet stP3))).infoMem 39 = none ∧
        (∀ j < 39, memGet (sources (infoOf 39 (aviSet stP3))).infoMem j ≠ none) ∧
        memGet (sources (infoOf 0 (aviSet stP3))).infoMem 0 = none) := by decide

/-- Steps that neither issue nor complete: an idle core's turn, and a read of STATUS while busy. -/
theorem witness_ErrorRecordKept :
    (step State.reset = .next State.reset ∧ resetNext State.reset = false ∧
      State.reset.status.busy = State.reset.pending.isSome) ∧
      (after (step { pendingOf 0x2#32 State.reset with
          inbox := [.host (.read .word 0x0004#16)] })).map (fun t => t.pending.isSome) = some true ∧
      (pendingOf 0x2#32 State.reset).status.busy = true :=
  ⟨⟨rfl, rfl, rfl⟩, by decide, by decide⟩

theorem witness_ErrorRecordKept_lut :
    step { State.reset with status := { Status.reset with lutValid := true } } =
      .next { State.reset with status := { Status.reset with lutValid := true } } := rfl

/-- Every command answers a next state, so each of the frame's premises is met. -/
theorem witness_CommandFrames (i : Instr) : ∃ t : State, exec i State.reset = .next t :=
  exec_next i State.reset

theorem witness_CommandFrames_regions :
    Instr.buildRegion .vsExit true = .buildRegion .vsExit true ∧ RegionKind.normal ≠ .vsExit ∧
      255 < 256 ∧ Instr.nop ≠ .enc ∧ Instr.nop ≠ .buildLut ∧ Instr.nop ≠ .buildAvi := by decide

theorem witness_CommandIgnoresLiveRegisters (i : Instr) (w : Word) :
    (pendingOf w State.reset).pending = some ⟨w, takeSnapshot State.reset⟩ ∧
      ∃ t : State, exec i (pendingOf w State.reset) = .next t :=
  ⟨rfl, exec_next i _⟩

/-- One access of each illegal kind, at the ends of the unmapped ranges, and legal ones beside them. -/
theorem witness_IllegalAccessFaults :
    Width.half ≠ .word ∧ (0x0102#16).toNat % 4 ≠ 0 ∧
      (0x002C ≤ (0x002C#16).toNat ∧ (0x002C#16).toNat ≤ 0x00FF) ∧ 0x9500 ≤ (0xFFFC#16).toNat ∧
      (Width.word = .word ∧ (0x0028#16).toNat % 4 = 0 ∧ (locate 0x0028).isSome = true ∧
        (locate 0x94FC).isSome = true) := by decide

theorem witness_IllegalAccessFaults_mapped : ¬unmappedAddr (0x0028#16).toNat ∧
    ¬unmappedAddr (0x94FC#16).toNat ∧ unmappedAddr (0x9500#16).toNat := by
  unfold unmappedAddr
  decide

theorem witness_AddressMap :
    [Reg.cmd, .status, .encIn, .encOut, .hActive, .hFp, .hPulse, .hBp, .hTotal, .syncCfg, .vic][10]? =
      some Reg.vic ∧ 15 < 16 ∧ 1023 < 1024 ∧ 39 < 40 ∧ 319 < 320 := by decide

/-- A location of each kind, with BUSY = 1 for those the contract guards. -/
theorem witness_WritesWithoutEffect (w : Word) :
    (pendingOf w State.reset).status.busy = true ∧
      legalAccess .word 0x0000#16 = some (.reg .cmd) ∧
      legalAccess .word 0x0008#16 = some (.reg .encIn) ∧
      legalAccess .word 0x0028#16 = some (.reg .vic) ∧
      legalAccess .word 0x8000#16 = some (.packIn 0) ∧
      legalAccess .word 0x94FC#16 = some (.packOut 319) ∧
      legalAccess .word 0x0004#16 = some (.reg .status) ∧
      legalAccess .word 0x000C#16 = some (.reg .encOut) ∧
      legalAccess .word 0x013C#16 = some (.terc4Rom 15) ∧
      legalAccess .word 0x014C#16 = some (.ctrlRom 3) ∧
      legalAccess .word 0x015C#16 = some (.gbRom 3) ∧
      legalAccess .word 0x1FFC#16 = some (.lutMem 1023) ∧
      legalAccess .word 0x209C#16 = some (.infoMem 39) ∧
      legalAccess .word 0x6FFC#16 = some (.regionMem 3 2 255) :=
  ⟨rfl, by decide⟩

theorem witness_ConfigWritesInvalidate : stP3.status.busy = false := by decide

theorem witness_RegistersReadBack :
    stP3.status.busy = false ∧
      (0x0028#16, 0x000000FF#32) ∈ [(0x0008#16, 0x00001FFF#32), (0x0028#16, 0x000000FF#32)] := by
  decide

theorem witness_BuffersReadBack :
    State.reset.status.busy = false ∧ 1023 < 1024 ∧ 319 < 320 ∧
      Loc.packOut 0 ≠ .packIn 0 ∧ Loc.packIn 0 ≠ .packOut 0 := by decide

theorem witness_ReadsChangeNothing :
    legalAccess .word 0x0004#16 = some (.reg .status) ∧
      drawsFree State.reset (.reg .status) = false := by decide

/-- The reset state with LUT_MEM[0] written. -/
def stLut : State := { State.reset with lutMem := [(0, 0x3007FDFF#32)] }

/-- L2.6 and 90_conflicts.md C16: an unwritten element faults, idle or while the command that is to write
it is pending. -/
theorem test_read_unwritten :
    (hostRead .word 0x1000#16 State.reset).fault = some (.uninitRead (.lutMem 0)) ∧
      (hostRead .word 0x1000#16 (pendingOf 0x2#32 State.reset)).fault =
        some (.uninitRead (.lutMem 0)) := by decide

/-- A written destination read while BUSY = 1 counts one free draw and faults nothing (R79). -/
theorem test_read_busy :
    (hostRead .word 0x1000#16 (pendingOf 0x2#32 stLut)).draws = 1 ∧
      (hostRead .word 0x1000#16 (pendingOf 0x2#32 stLut)).fault = none := by decide

/-- A busy BUILD_LUT with its destination written and with another location, and the same destination
unwritten, idle and busy. -/
theorem witness_ReadAnswers :
    legalAccess .word 0x1000#16 = some (.lutMem 0) ∧
      (readLoc (pendingOf 0x2#32 stLut) (.lutMem 0) = .ok 0x3007FDFF#32 ∧
        (pendingOf 0x2#32 stLut).status.busy = true ∧
        (pendingOf 0x2#32 stLut).pending = some ⟨0x2#32, takeSnapshot stLut⟩ ∧
        isDestination (decodeWord 0x2#32) (.lutMem 0) = true) ∧
      isDestination (decodeWord 0x2#32) (.reg .status) = false ∧ State.reset.status.busy = false ∧
      readLoc State.reset (.lutMem 0) = .error (.lutMem 0) ∧
      readLoc (pendingOf 0x2#32 State.reset) (.lutMem 0) = .error (.lutMem 0) :=
  ⟨by decide, ⟨rfl, by decide, by decide, by decide⟩, by decide, by decide, rfl, rfl⟩

theorem witness_ReadAnswers_value : readLoc State.reset (.reg .status) = .ok 0x00000000#32 := rfl

theorem witness_RomReads : step State.reset = .next State.reset := rfl

/-- The state after P3's tables: BUILD_LUT, BUILD_AVI and the region of kind 0 with a data island. -/
def stBuilt : State := { stP3 with
  status := { Status.reset with aviValid := true, lutValid := true, regionValid := 1, regionDi := 1 }
  lutMem := memPut [] 0 (lutWords defaultParams)
  infoMem := memPut [] 0 (infoWords defaultParams 1 false false)
  regionMem := putRegion defaultParams regsP3 (aviStreams defaultParams regsP3) .normal true [] }

/-- The invariant holds in a state with every table built, and not only at reset. -/
theorem witness_StepKeepsInvariant : stBuilt.Inv := by
  have hv : timingValid regsP3 = true := by decide
  refine ⟨⟨?_, ?_, ?_, wf_nil _, wf_nil _⟩, ?_, ?_, ?_, ?_, ?_⟩
  · exact memPut_wf (wf_nil _) _ _ (by rw [lutWords_length])
  · exact memPut_wf (wf_nil _) _ _ (by rw [infoWords_length])
  · exact putRegion_wf (wf_nil _) (by decide)
  · decide
  · intro p hp
    cases hp
  · intro _
    exact memPut_whole (wf_nil 1024) _ (lutWords_length _)
  · intro _
    exact memPut_whole (wf_nil 40) _ (infoWords_length _ _ _ _)
  · intro kind hk
    cases kind with
    | normal =>
      refine ⟨by decide, fun c w word hw => ?_⟩
      have hlt : w < 5 * groupsOf (regionLength regsP3) := by
        have := (List.getElem?_eq_some_iff.1 hw).1
        rwa [regionWords_length] at this
      exact (memGet_putRegion (by decide) c w hlt).trans hw
    | vsEnter => cases hk
    | vsActive => cases hk
    | vsExit => cases hk

theorem witness_StepKeepsMemoriesWf : stBuilt.memWf ∧ step stBuilt = .next stBuilt :=
  ⟨witness_StepKeepsInvariant.1, rfl⟩

/-- Kind 0 of the built state, at the first and the last position of the packet. -/
theorem witness_PacketConsistency :
    stBuilt.Inv ∧ regionBit stBuilt.status.regionValid (kindIndex .normal) = true ∧
      regionBit stBuilt.status.regionDi (kindIndex .normal) = true ∧ 0 < 32 ∧ 31 < 32 :=
  ⟨witness_StepKeepsInvariant, by decide, by decide, by decide, by decide⟩

theorem witness_PendingCommandCompletes (w : Word) :
    (pendingOf w stBuilt).pending = some ⟨w, takeSnapshot stBuilt⟩ := rfl

end Sys2Proof.Tests
end

/-! PROOFS. The host port on the configuration registers and the ROMs, and the parameters, which no step
writes (10_state.md R35 to R41, R47; 70_reset_and_hazards.md R342). -/

namespace Sys2Proof.Machine

/-! ## Host accesses that reach a known location -/

/-- With BUSY = 0 a guarded write takes place (60_exceptions.md R306). -/
theorem guardBusy_of_idle {s : State} (hidle : s.status.busy = false) (reason : ContractReason)
    (t : State) : guardBusy reason s t = t := by
  simp [guardBusy, hidle]

theorem hostWrite_of_legalAccess {width : Width} {a : Addr} {loc : Loc}
    (ha : legalAccess width a = some loc) (v : Word) (s : State) :
    hostWrite width a v s = hostWriteLoc loc v s := by
  simp [hostWrite, ha]

theorem hostRead_of_legalAccess {width : Width} {a : Addr} {loc : Loc}
    (ha : legalAccess width a = some loc) (s : State) :
    hostRead width a s = hostReadLoc loc s := by
  simp [hostRead, ha]

/-- A legal write to a location the BUSY contract guards takes place while BUSY = 0. -/
theorem hostWrite_of_idle {width : Width} {a : Addr} {loc : Loc} {reason : ContractReason} {v : Word}
    {s written : State} (ha : legalAccess width a = some loc)
    (hw : hostWriteLoc loc v s = guardBusy reason s written) (hidle : s.status.busy = false) :
    hostWrite width a v s = written := by
  rw [hostWrite_of_legalAccess ha, hw, guardBusy_of_idle hidle]

/-- A location that is no command's destination is never a free draw (20_memory.md R79). -/
theorem drawsFree_eq_false {loc : Loc} (hloc : ∀ i, isDestination i loc = false) (s : State) :
    drawsFree s loc = false := by
  unfold drawsFree
  cases fetchCommand s <;> simp [hloc]

/-- A legal read of a written location that is no command's destination answers its value, busy or
not. -/
theorem hostRead_of_not_destination {width : Width} {a : Addr} {loc : Loc} {s : State} {v : Word}
    (ha : legalAccess width a = some loc) (hloc : ∀ i, isDestination i loc = false)
    (hv : readLoc s loc = .ok v) : hostRead width a s = answer v s := by
  simp [hostRead_of_legalAccess ha, hostReadLoc, hv, drawsFree_eq_false hloc]

/-- Settles O50: each register is at its address, and with BUSY = 0 the guarded write is the update. -/
theorem configWritesInvalidate : Obligations.ConfigWritesInvalidate := by
  intro s v hidle
  refine ⟨?encIn, ?hActive, ?hFp, ?hPulse, ?hBp, ?hTotal, ?syncCfg, ?vic⟩
  case encIn => exact hostWrite_of_idle (loc := .reg .encIn) rfl rfl hidle
  case hActive => exact hostWrite_of_idle (loc := .reg .hActive) rfl rfl hidle
  case hFp => exact hostWrite_of_idle (loc := .reg .hFp) rfl rfl hidle
  case hPulse => exact hostWrite_of_idle (loc := .reg .hPulse) rfl rfl hidle
  case hBp => exact hostWrite_of_idle (loc := .reg .hBp) rfl rfl hidle
  case hTotal => exact hostWrite_of_idle (loc := .reg .hTotal) rfl rfl hidle
  case syncCfg => exact hostWrite_of_idle (loc := .reg .syncCfg) rfl rfl hidle
  case vic => exact hostWrite_of_idle (loc := .reg .vic) rfl rfl hidle

/-! ## The ROMs (10_state.md R47) -/

/-- TERC4_ROM[i] stands at 0x0100 + 4 i (20_memory.md R72). -/
theorem legalAccess_terc4Rom {i : Nat} (hi : i < 16) :
    legalAccess .word (BitVec.ofNat 16 (0x0100 + 4 * i)) = some (.terc4Rom i) := by
  have ha : (BitVec.ofNat 16 (0x0100 + 4 * i)).toNat = 0x0100 + 4 * i := by
    rw [BitVec.toNat_ofNat]
    omega
  have hindex : (0x0100 + 4 * i - 0x0100) / 4 = i := by omega
  rw [legalAccess_eq_some, ha, locate, if_neg (by omega), if_pos (by omega), hindex]
  exact ⟨rfl, by omega, rfl⟩

/-- The table holds TERC4(n) as its entry n (30_encoding.md R102). -/
theorem readLoc_terc4Rom (s : State) (n : BitVec 4) :
    readLoc s (.terc4Rom n.toNat) = .ok ((terc4Sym s.params n).setWidth 32) := by
  have hn : n.toNat < 16 := n.isLt
  simp [readLoc, terc4Sym, hn]

/-- CTRL_ROM[2 c1 + c0] stands at 0x0140 + 4 (2 c1 + c0) (20_memory.md R72). -/
theorem legalAccess_ctrlRom (c1 c0 : Bool) :
    legalAccess .word (BitVec.ofNat 16 (0x0140 + 4 * (2 * c1.toNat + c0.toNat))) =
      some (.ctrlRom (2 * c1.toNat + c0.toNat)) := by
  cases c1 <;> cases c0 <;> rfl

/-- The table holds CTRL(c1, c0) as its entry 2 c1 + c0 (30_encoding.md R101). -/
theorem readLoc_ctrlRom (s : State) (c1 c0 : Bool) :
    readLoc s (.ctrlRom (2 * c1.toNat + c0.toNat)) =
      .ok ((ctrlSym s.params c1 c0).setWidth 32) := by
  cases c1 <;> cases c0 <;> simp [readLoc, ctrlSym]

theorem terc4Rom_not_destination (n : Nat) (i : Instr) : isDestination i (.terc4Rom n) = false := by
  cases i <;> rfl

theorem ctrlRom_not_destination (n : Nat) (i : Instr) : isDestination i (.ctrlRom n) = false := by
  cases i <;> rfl

theorem gbRom_not_destination (n : Nat) (i : Instr) : isDestination i (.gbRom n) = false := by
  cases i <;> rfl

theorem hostRead_gbRom {a : Addr} {i : Nat} (ha : legalAccess .word a = some (.gbRom i)) (s : State) :
    hostRead .word a s = answer ((gbRomEntry s.params i).setWidth 32) s :=
  hostRead_of_not_destination ha (gbRom_not_destination i) rfl

/-! ## No step writes the parameters (70_reset_and_hazards.md R342) -/

@[simp] theorem storeRegion_params (st : Streams) (kind : RegionKind) (di : Bool) (s : State) :
    (storeRegion st kind di s).params = s.params := rfl

/-- The completion of a command leaves the parameters alone. -/
theorem exec_params {i : Instr} {s t : State} (h : exec i s = .next t) : t.params = s.params := by
  cases i with
  | nop => cases h; rfl
  | enc => obtain ⟨-, rfl⟩ | ⟨-, rfl⟩ := execEnc_cases h <;> simp
  | buildLut => cases h; rfl
  | buildAvi => cases h; rfl
  | buildRegion kind di =>
    obtain ⟨_, -, rfl⟩ | ⟨_, -, -, -, rfl⟩ | ⟨_, -, -, -, rfl⟩ | ⟨-, -, rfl⟩ :=
      execBuildRegion_cases h <;> simp
  | pack n =>
    obtain ⟨-, rfl⟩ | ⟨_, -, -, rfl⟩ | ⟨_, -, -, rfl⟩ := execPack_cases h <;> simp
  | unpack n =>
    obtain ⟨-, rfl⟩ | ⟨_, -, -, rfl⟩ | ⟨_, -, -, rfl⟩ := execUnpack_cases h <;> simp
  | reserved7 => cases h; rfl
  | reserved8F op => cases h; rfl

theorem coreTurn_params {s t : State} (h : coreTurn s = .next t) : t.params = s.params := by
  obtain ⟨-, rfl⟩ | ⟨p, -, hexec⟩ := coreTurn_cases h
  · rfl
  · exact exec_params hexec

@[simp] theorem hostRead_params (width : Width) (a : Addr) (s : State) :
    (hostRead width a s).params = s.params := by
  obtain ⟨-, hread⟩ | ⟨loc, -, hread⟩ := hostRead_cases width a s
  · simp [hread]
  · obtain ⟨_, -, -, hloc⟩ | ⟨_, -, -, hloc⟩ | ⟨_, -, hloc⟩ := hostReadLoc_cases loc s <;>
      simp [hread, hloc]

theorem guardBusy_params {s t : State} (reason : ContractReason) (ht : t.params = s.params) :
    (guardBusy reason s t).params = s.params := by
  obtain ⟨-, hguard⟩ | ⟨-, hguard⟩ := guardBusy_cases reason s t <;> simp [hguard, ht]

@[simp] theorem writeReg_params (r : Reg) (v : Word) (s : State) :
    (writeReg r v s).params = s.params := by
  cases r with
  | status | encOut => rfl
  | cmd | encIn | hActive | hFp | hPulse | hBp | hTotal | syncCfg | vic =>
    exact guardBusy_params _ rfl

@[simp] theorem hostWriteLoc_params (loc : Loc) (v : Word) (s : State) :
    (hostWriteLoc loc v s).params = s.params := by
  cases loc with
  | reg r => exact writeReg_params r v s
  | terc4Rom | ctrlRom | gbRom | lutMem | infoMem | regionMem => rfl
  | packIn | packOut => exact guardBusy_params _ rfl

@[simp] theorem hostWrite_params (width : Width) (a : Addr) (v : Word) (s : State) :
    (hostWrite width a v s).params = s.params := by
  obtain ⟨-, hwrite⟩ | ⟨loc, -, hwrite⟩ := hostWrite_cases width a v s <;> simp [hwrite]

@[simp] theorem hostAccess_params (op : HostOp) (s : State) :
    (hostAccess op s).params = s.params := by
  cases op with
  | read width a => exact hostRead_params width a s
  | write width a v => exact hostWrite_params width a v s

/-- Every move of a step leaves the parameters alone: the core's turn, a host access and reset. -/
theorem step_params {s t : State} (h : step s = .next t) : t.params = s.params := by
  obtain ⟨-, ⟨-, hturn⟩ | ⟨rest, -, hturn⟩ | ⟨op, rest, -, rfl⟩ | ⟨rest, -, rfl⟩⟩ := step_cases h
  · exact coreTurn_params hturn
  · simpa using coreTurn_params hturn
  · simp
  · simp

/-- Settles O55: a ROM is no command's destination, so a read answers its entry in every state; the
entries are the parameters, which every step leaves alone. -/
theorem romReads : Obligations.RomReads := by
  intro s
  refine ⟨fun n => ?terc4, fun c1 c0 => ?ctrl, ?vgb0, ?vgb1, ?vgb2, ?digb, fun _ => step_params⟩
  case terc4 =>
    exact hostRead_of_not_destination (legalAccess_terc4Rom n.isLt) (terc4Rom_not_destination _)
      (readLoc_terc4Rom s n)
  case ctrl =>
    exact hostRead_of_not_destination (legalAccess_ctrlRom c1 c0) (ctrlRom_not_destination _)
      (readLoc_ctrlRom s c1 c0)
  case vgb0 => exact hostRead_gbRom (i := 0) rfl s
  case vgb1 => exact hostRead_gbRom (i := 1) rfl s
  case vgb2 => exact hostRead_gbRom (i := 2) rfl s
  case digb => exact hostRead_gbRom (i := 3) rfl s

end Sys2Proof.Machine

/-! PROOFS. The host port's address map and the accesses it refuses (20_memory.md R71, R72). -/

namespace Sys2Proof.Machine

/-! ## Where the address map has no location -/

/-- The eleven registers stand in the first eleven words (20_memory.md R72). -/
theorem regAt_eq_none_iff {i : Nat} : regAt i = none ↔ 11 ≤ i := by
  constructor
  · intro hnone
    by_contra hi
    have hlt : i < 11 := by omega
    interval_cases i <;> cases hnone
  · intro hi
    obtain ⟨j, rfl⟩ := Nat.exists_eq_add_of_le' hi
    rfl

/-- The map has no location exactly at the addresses of the rows without one: the windows of `locate`
and the ranges of `unmappedAddr` are complements (20_memory.md R72). -/
theorem locate_eq_none_iff {n : Nat} : locate n = none ↔ unmappedAddr n := by
  unfold locate unmappedAddr
  split_ifs with hreg
  case pos =>
    rw [Option.map_eq_none_iff, regAt_eq_none_iff]
    omega
  all_goals
    simp only [false_iff, true_iff]
    omega

/-- An access reaches no location exactly when its width, its alignment or its address is wrong
(20_memory.md R71). -/
theorem legalAccess_eq_none_iff {width : Width} {a : Addr} :
    legalAccess width a = none ↔ width ≠ .word ∨ a.toNat % 4 ≠ 0 ∨ unmappedAddr a.toNat := by
  unfold legalAccess
  split_ifs with hword
  · simp [hword, locate_eq_none_iff]
  · simp only [true_iff]
    tauto

/-! ## Host accesses that reach no location -/

theorem hostRead_of_illegalAccess {width : Width} {a : Addr} (ha : legalAccess width a = none)
    (s : State) : hostRead width a s = recordFault (.busError a) s := by
  simp [hostRead, ha]

theorem hostWrite_of_illegalAccess {width : Width} {a : Addr} (ha : legalAccess width a = none)
    (v : Word) (s : State) : hostWrite width a v s = recordFault (.busError a) s := by
  simp [hostWrite, ha]

/-- Settles O47: the access reaches no location exactly in the three cases named, so it faults there
and reaches its location everywhere else. -/
theorem illegalAccessFaults : Obligations.IllegalAccessFaults := by
  intro s width a v
  refine ⟨fun hillegal => ?faults, fun ⟨hword, haligned, hmapped⟩ => ?reaches⟩
  case faults =>
    have hnone := legalAccess_eq_none_iff.2 hillegal
    exact ⟨hostRead_of_illegalAccess hnone s, hostWrite_of_illegalAccess hnone v s⟩
  case reaches =>
    have hlegal : legalAccess width a ≠ none := by
      simp [legalAccess_eq_none_iff, hword, haligned, hmapped]
    obtain ⟨loc, hloc⟩ := Option.ne_none_iff_exists'.1 hlegal
    exact ⟨loc, hloc, hostRead_of_legalAccess hloc s, hostWrite_of_legalAccess hloc v s⟩

end Sys2Proof.Machine

/-! PROOFS. The two layouts of the encoding chapter: the bits of a packed stream (30_encoding.md R104)
and the row of a command word (30_encoding.md R113). -/

namespace Sys2Proof.Machine

/-! ## The packed stream -/

/-- The stream of any number of groups, by induction on the groups: the first 160 bits are those of
the first group, and the others are the stream of the remaining symbols. -/
theorem packGroups_bit (g : Nat) (s : List Symbol) (b : Nat) (hb : b < 160 * g) :
    ((packGroups g s).getD (b / 32) 0#32).getLsbD (b % 32) =
      (s.getD (b / 10) 0#10).getLsbD (b % 10) := by
  induction g generalizing s b with
  | zero => omega
  | succ g ih =>
    rw [packGroups]
    by_cases hfirst : b < 160
    · have hword : b / 32 < (pack16 (s.take 16)).length := by rw [pack16_length]; omega
      have hsym : b / 10 < 16 := by omega
      rw [List.getD_append _ _ _ _ hword, pack16_bit _ _ _ hword (by omega), Nat.div_add_mod]
      simp [List.getD_eq_getElem?_getD, hsym]
    · obtain ⟨c, rfl⟩ := Nat.exists_eq_add_of_le (Nat.le_of_not_lt hfirst)
      have hword : (pack16 (s.take 16)).length ≤ (160 + c) / 32 := by rw [pack16_length]; omega
      have hw : (160 + c) / 32 - (pack16 (s.take 16)).length = c / 32 := by
        rw [pack16_length]; omega
      have hsym : (160 + c) / 10 = 16 + c / 10 := by omega
      have hwbit : (160 + c) % 32 = c % 32 := by omega
      have hsbit : (160 + c) % 10 = c % 10 := by omega
      rw [List.getD_append_right _ _ _ _ hword, hw, hwbit, ih _ c (by omega), hsym, hsbit]
      simp [List.getD_eq_getElem?_getD]

/-- Settles O21: `packSymbols` packs the started groups of the sequence, and past its end the stream
of the groups has zero symbols. -/
theorem packedStreamBits : Obligations.PackedStreamBits :=
  fun s => ⟨packSymbols_length s, fun b hb => packGroups_bit (groupsOf s.length) s b hb⟩

/-! ## The row of a command word -/

/-- The command a word decodes to is of the row of its OP. -/
theorem rowOp_decodeWord (w : Word) : rowOp (decodeWord w) = cmdOp w := by
  unfold decodeWord
  split
  case h_9 => rfl
  all_goals exact Eq.symm ‹_›

/-- An OP whose words decode to a command of its row is the only OP that does. -/
theorem cmdOp_eq_iff_decodeWord_eq {w : Word} {op : BitVec 4} {i : Instr} (hrow : rowOp i = op)
    (hdec : cmdOp w = op → decodeWord w = i) : cmdOp w = op ↔ decodeWord w = i :=
  ⟨hdec, fun hi => by rw [← rowOp_decodeWord, hi, hrow]⟩

/-- The last row of the table is that of the OPs 0x8 to 0xF. -/
theorem decodeWord_eq_reserved8F_iff {w : Word} :
    decodeWord w = .reserved8F (cmdOp w) ↔ 8 ≤ (cmdOp w).toNat := by
  unfold decodeWord
  split
  case h_9 =>
    simp only [BitVec.toNat_eq, BitVec.toNat_ofNat, imp_false, true_iff] at *
    omega
  all_goals simp [*]

/-- Settles O2: each OP below 8 decodes to its own row and is read back from it; the others decode to
the last row. -/
theorem rowsChosenByOp : Obligations.RowsChosenByOp := by
  intro w
  refine ⟨?nop, ?enc, ?buildLut, ?buildAvi, ?buildRegion, ?pack, ?unpack, ?reserved7, ?reserved8F⟩
  case reserved8F => exact decodeWord_eq_reserved8F_iff.symm
  all_goals
    exact cmdOp_eq_iff_decodeWord_eq rfl fun hop => by
      simp [decodeWord, hop, cmdKind, cmdDi, cmdCount]

end Sys2Proof.Machine

/-! PROOFS. The Symbol Encoder TMDS(v, d) and the ENC command (40_symbol_encoder.md). -/

namespace Sys2Proof.Machine

/-! ## Bit counts (00_scope.md section 5) -/

theorem popcount_le {w : Nat} (v : BitVec w) : popcount v ≤ w := by
  simpa [popcount] using List.length_filter_le v.getLsbD (List.range w)

/-- The ones of a concatenation are those of its two parts. -/
theorem popcount_append {m n : Nat} (x : BitVec m) (y : BitVec n) :
    popcount (x ++ y) = popcount x + popcount y := by
  have hrange : List.range (m + n) = List.range n ++ (List.range m).map (n + ·) := by
    rw [Nat.add_comm, List.range_add]
  have hlow : (List.range n).filter (x ++ y).getLsbD = (List.range n).filter y.getLsbD :=
    List.filter_congr fun i hi => by simp [BitVec.getLsbD_append, List.mem_range.mp hi]
  have hhigh : (x ++ y).getLsbD ∘ (n + ·) = x.getLsbD := by
    funext i
    simp [BitVec.getLsbD_append]
  rw [popcount, hrange, List.filter_append, hlow, List.filter_map, hhigh, List.length_append,
    List.length_map, Nat.add_comm, popcount, popcount]

/-- The ones of the complement are the zeros. -/
theorem popcount_not {w : Nat} (v : BitVec w) : popcount (~~~v) = w - popcount v := by
  have hnot : (List.range w).filter (~~~v).getLsbD = (List.range w).filter (fun i => !v.getLsbD i) :=
    List.filter_congr fun i hi => by simp [List.mem_range.mp hi]
  have hsplit := List.length_eq_length_filter_add (l := List.range w) v.getLsbD
  rw [List.length_range] at hsplit
  simp only [popcount, hnot]
  omega

theorem popcount_ofBool (b : Bool) : popcount (BitVec.ofBool b) = b.toNat := by
  cases b <;> rfl

/-! ## The symbol and its flag bits (30_encoding.md R100) -/

theorem popcount_mkSymbol (b9 b8 : Bool) (q : Byte) :
    popcount (mkSymbol b9 b8 q) = b9.toNat + b8.toNat + popcount q := by
  rw [mkSymbol, popcount_append, popcount_append, popcount_ofBool, popcount_ofBool]

theorem mkSymbol_getLsbD_8 (b9 b8 : Bool) (q : Byte) : (mkSymbol b9 b8 q).getLsbD 8 = b8 := by
  simp only [mkSymbol, BitVec.getLsbD_append, BitVec.getLsbD_ofBool]
  rfl

theorem mkSymbol_getLsbD_9 (b9 b8 : Bool) (q : Byte) : (mkSymbol b9 b8 q).getLsbD 9 = b9 := by
  simp only [mkSymbol, BitVec.getLsbD_append, BitVec.getLsbD_ofBool]
  rfl

theorem mkSymbol_low (b9 b8 : Bool) (q : Byte) : (mkSymbol b9 b8 q).extractLsb' 0 8 = q :=
  BitVec.extractLsb'_append_eq_right

/-! ## The transform (R151 to R154) -/

/-- Bit i of the code word is bit i of the serial chain. -/
theorem codeWord_getLsbD (v : Byte) {i : Nat} (hi : i < 8) :
    (codeWord v).getLsbD i = chainBit v i := by
  interval_cases i <;> simp only [codeWord, BitVec.getLsbD_append, BitVec.getLsbD_ofBool] <;> rfl

/-- One link of the serial chain, by the marker: XOR when it is 1, XNOR when it is 0. -/
theorem chainBit_succ (v : Byte) (i : Nat) :
    chainBit v (i + 1) =
      if markerBit v then chainBit v i ^^ v.getLsbD (i + 1)
      else !(chainBit v i ^^ v.getLsbD (i + 1)) := by
  cases hx : useXnor v <;> simp [chainBit, markerBit, hx]

theorem markerBit_eq_false_iff (v : Byte) :
    markerBit v = false ↔ 4 < popcount v ∨ (popcount v = 4 ∧ v.getLsbD 0 = false) := by
  simp only [markerBit, useXnor, Bool.not_eq_false', Bool.or_eq_true, Bool.and_eq_true,
    decide_eq_true_eq, beq_iff_eq, Bool.not_eq_true']

/-- Settles O11: the bits of the code word are those of the chain, whose links follow the marker. -/
theorem encoderTransform : Obligations.EncoderTransform := by
  intro v
  refine ⟨markerBit_eq_false_iff v, codeWord_getLsbD v (by decide), fun i hi => ?_, rfl, rfl⟩
  rw [codeWord_getLsbD v (Nat.succ_lt_succ hi), codeWord_getLsbD v (Nat.lt_succ_of_lt hi),
    chainBit_succ]

/-! ## The balance cases (R155 to R157) -/

/-- The condition of case A (R155). -/
abbrev BalanceCaseA (v : Byte) (d : Int) : Prop := d = 0 ∨ onesOf v = zerosOf v

/-- The second condition of case B (R156). -/
abbrev BalanceCaseB (v : Byte) (d : Int) : Prop :=
  (0 < d ∧ zerosOf v < onesOf v) ∨ (d < 0 ∧ onesOf v < zerosOf v)

theorem tmds_caseA_xor {v : Byte} {d : Int} (hA : BalanceCaseA v d) (hm : markerBit v = true) :
    tmds v d = (mkSymbol false true (codeWord v), d + (onesOf v - zerosOf v)) := by
  simp only [tmds, if_pos hA, hm, if_true]

theorem tmds_caseA_xnor {v : Byte} {d : Int} (hA : BalanceCaseA v d) (hm : markerBit v = false) :
    tmds v d = (mkSymbol true false (~~~codeWord v), d + (zerosOf v - onesOf v)) := by
  simp [tmds, if_pos hA, hm]

theorem tmds_caseB {v : Byte} {d : Int} (hA : ¬BalanceCaseA v d) (hB : BalanceCaseB v d) :
    tmds v d = (mkSymbol true (markerBit v) (~~~codeWord v),
      d + 2 * (markerBit v).toNat + (zerosOf v - onesOf v)) := by
  simp only [tmds, if_neg hA, if_pos hB]
  cases markerBit v <;> rfl

theorem tmds_caseC {v : Byte} {d : Int} (hA : ¬BalanceCaseA v d) (hB : ¬BalanceCaseB v d) :
    tmds v d = (mkSymbol false (markerBit v) (codeWord v),
      d - 2 * (1 - (markerBit v).toNat) + (onesOf v - zerosOf v)) := by
  simp only [tmds, if_neg hA, if_neg hB]
  cases markerBit v <;> rfl

/-- Settles O12: the cases of `tmds`, with the marker as 1 or 0. -/
theorem encoderBalanceCases : Obligations.EncoderBalanceCases := by
  rintro v d q8 rfl
  refine ⟨fun hA => ⟨tmds_caseA_xor hA, tmds_caseA_xnor hA⟩,
    fun hA => ⟨fun hB => ?caseB, fun hB => ?caseC⟩⟩
  case caseB => rw [tmds_caseB hA hB]; cases markerBit v <;> rfl
  case caseC => rw [tmds_caseC hA hB]; cases markerBit v <;> rfl

/-- Every symbol carries the marker in bit 8 and, in bit 9, whether it holds the code word inverted. -/
theorem tmds_symbol (v : Byte) (d : Int) :
    ∃ inv : Bool, (tmds v d).1 =
      mkSymbol inv (markerBit v) (if inv then ~~~codeWord v else codeWord v) := by
  by_cases hA : BalanceCaseA v d
  · cases hm : markerBit v
    · exact ⟨true, by rw [tmds_caseA_xnor hA hm]; rfl⟩
    · exact ⟨false, by rw [tmds_caseA_xor hA hm]; rfl⟩
  · by_cases hB : BalanceCaseB v d
    · exact ⟨true, by rw [tmds_caseB hA hB]; rfl⟩
    · exact ⟨false, by rw [tmds_caseC hA hB]; rfl⟩

/-! ## The disparity (R159, R160) -/

theorem onesOf_bounds (v : Byte) : 0 ≤ onesOf v ∧ onesOf v ≤ 8 := by
  have hle := popcount_le (codeWord v)
  simp only [onesOf]
  omega

/-- The ones of the inverted code word. -/
theorem popcount_not_codeWord (v : Byte) : (popcount (~~~codeWord v) : Int) = zerosOf v := by
  have hle := popcount_le (codeWord v)
  rw [popcount_not, zerosOf, onesOf]
  omega

/-- In each balance case the update of the disparity is the ones of the symbol less its zeros: the flag
bits and the code word are counted apart, and inversion swaps the code word's counts (R159). -/
theorem tmds_disparity (v : Byte) (d : Int) :
    (tmds v d).2 = d + (2 * (popcount (tmds v d).1 : Int) - 10) := by
  have hzeros : zerosOf v = 8 - onesOf v := rfl
  have hones : (popcount (codeWord v) : Int) = onesOf v := rfl
  have hinv := popcount_not_codeWord v
  by_cases hA : BalanceCaseA v d
  · cases hm : markerBit v
    · rw [tmds_caseA_xnor hA hm, popcount_mkSymbol, Bool.toNat_true, Bool.toNat_false]
      omega
    · rw [tmds_caseA_xor hA hm, popcount_mkSymbol, Bool.toNat_true, Bool.toNat_false]
      omega
  · by_cases hB : BalanceCaseB v d
    · rw [tmds_caseB hA hB, popcount_mkSymbol, Bool.toNat_true]
      omega
    · rw [tmds_caseC hA hB, popcount_mkSymbol, Bool.toNat_false]
      omega

theorem tmds_disparity_parity (v : Byte) (d : Int) : (tmds v d).2 % 2 = d % 2 := by
  rw [tmds_disparity]
  omega

/-- Settles O13: the count is exact in each balance case, and an even number. -/
theorem encoderDisparityExact : Obligations.EncoderDisparityExact := fun v d =>
  ⟨by rw [tmds_disparity]; omega, tmds_disparity_parity v d⟩

/-- A symbol moves the disparity from 0 by at most 8, and from elsewhere toward 0 and past it, by at
most 10. -/
theorem tmds_disparity_toward_zero (v : Byte) (d : Int) :
    (d = 0 → -8 ≤ (tmds v d).2 ∧ (tmds v d).2 ≤ 8) ∧
    (0 < d → d - 10 ≤ (tmds v d).2 ∧ (tmds v d).2 ≤ d) ∧
    (d < 0 → d ≤ (tmds v d).2 ∧ (tmds v d).2 ≤ d + 10) := by
  have hzeros : zerosOf v = 8 - onesOf v := rfl
  obtain ⟨hlo, hhi⟩ := onesOf_bounds v
  have hmarker := Bool.toNat_le (markerBit v)
  by_cases hA : BalanceCaseA v d
  · cases hm : markerBit v
    · rw [tmds_caseA_xnor hA hm]
      omega
    · rw [tmds_caseA_xor hA hm]
      omega
  · by_cases hB : BalanceCaseB v d
    · rw [tmds_caseB hA hB]
      omega
    · rw [tmds_caseC hA hB]
      omega

/-- The even disparities the rule allows (R160). -/
abbrev EvenDisparity (d : Int) : Prop := d % 2 = 0 ∧ -8 ≤ d ∧ d ≤ 8

/-- Every symbol keeps an even disparity even and within 8: a positive one is at least 2, so that 10
less is at least -8. -/
theorem tmds_keeps_evenDisparity (v : Byte) {d : Int} (hd : EvenDisparity d) :
    EvenDisparity (tmds v d).2 := by
  have hparity := tmds_disparity_parity v d
  obtain ⟨hzero, hpos, hneg⟩ := tmds_disparity_toward_zero v d
  obtain hd | hd | hd := Int.lt_trichotomy d 0 <;> omega

theorem foldl_tmds_keeps_evenDisparity (vs : List Byte) {d : Int} (hd : EvenDisparity d) :
    EvenDisparity (vs.foldl (fun d v => (tmds v d).2) d) := by
  induction vs generalizing d with
  | nil => exact hd
  | cons v vs ih => exact ih (tmds_keeps_evenDisparity v hd)

/-- Odd disparities within 7 stay odd and within 9. -/
theorem tmds_odd_bounds (v : Byte) {d : Int} (hodd : d % 2 = 1) (hlo : -7 ≤ d) (hhi : d ≤ 7) :
    (tmds v d).2 % 2 = 1 ∧ -9 ≤ (tmds v d).2 ∧ (tmds v d).2 ≤ 9 := by
  have hparity := tmds_disparity_parity v d
  obtain ⟨-, hpos, hneg⟩ := tmds_disparity_toward_zero v d
  obtain hd | hd | hd := Int.lt_trichotomy d 0 <;> omega

/-- From 0, a byte with bit i alone has the code bits i to 7 set, and the byte 0 none. -/
theorem tmds_disparity_of_single_bit :
    ∀ i : Nat, i < 9 → (tmds (1#8 <<< i) 0).2 = 8 - 2 * (i : Int) := by
  decide

theorem evenDisparity_reached {d : Int} (hd : EvenDisparity d) : ∃ v : Byte, (tmds v 0).2 = d := by
  obtain ⟨heven, hlo, hhi⟩ := hd
  refine ⟨1#8 <<< ((8 - d) / 2).toNat, ?_⟩
  rw [tmds_disparity_of_single_bit _ (by omega)]
  omega

/-- Settles O14: symbols keep even disparities within 8, in sequences by induction; bytes with one bit
reach the nine; odd disparities stay within 9, and the two encodes of the rule reach the extremes. -/
theorem encoderBound : Obligations.EncoderBound :=
  ⟨fun v _ heven hlo hhi => tmds_keeps_evenDisparity v ⟨heven, hlo, hhi⟩,
    fun vs => foldl_tmds_keeps_evenDisparity vs (by decide),
    fun _ heven hlo hhi => evenDisparity_reached ⟨heven, hlo, hhi⟩,
    fun v _ hodd hlo hhi => tmds_odd_bounds v hodd hlo hhi, by decide, by decide⟩

/-! ## The structure of a symbol (R163) -/

theorem tmds_getLsbD_8 (v : Byte) (d : Int) : (tmds v d).1.getLsbD 8 = markerBit v := by
  obtain ⟨inv, hsym⟩ := tmds_symbol v d
  rw [hsym, mkSymbol_getLsbD_8]

/-- A byte never equals its complement, so the low byte tells an inverted code word. -/
theorem tmds_getLsbD_9_iff (v : Byte) (d : Int) :
    (tmds v d).1.getLsbD 9 = true ↔ (tmds v d).1.extractLsb' 0 8 = ~~~codeWord v := by
  obtain ⟨inv, hsym⟩ := tmds_symbol v d
  rw [hsym, mkSymbol_getLsbD_9, mkSymbol_low]
  cases inv <;> simp

theorem tmds_getLsbD_9_of_caseA {v : Byte} {d : Int} (hA : BalanceCaseA v d) :
    (tmds v d).1.getLsbD 9 = !(tmds v d).1.getLsbD 8 := by
  cases hm : markerBit v
  · rw [tmds_caseA_xnor hA hm, mkSymbol_getLsbD_9, mkSymbol_getLsbD_8]
    rfl
  · rw [tmds_caseA_xor hA hm, mkSymbol_getLsbD_9, mkSymbol_getLsbD_8]
    rfl

/-- A balanced code word takes case A at every disparity and leaves it as it is. -/
theorem tmds_of_balanced {v : Byte} (hbal : onesOf v = zerosOf v) (d : Int) :
    tmds v d = (mkSymbol (!markerBit v) (markerBit v)
      (if markerBit v then codeWord v else ~~~codeWord v), d) := by
  cases hm : markerBit v
  · rw [tmds_caseA_xnor (.inr hbal) hm, hbal, Int.sub_self, Int.add_zero]
    rfl
  · rw [tmds_caseA_xor (.inr hbal) hm, hbal, Int.sub_self, Int.add_zero]
    rfl

/-- The 52 bytes with a balanced code word, counted over all 256. -/
theorem balanced_count : ((List.range 256).filter fun n =>
    decide (onesOf (BitVec.ofNat 8 n) = zerosOf (BitVec.ofNat 8 n))).length = 52 := by
  decide

/-- Settles O16: both flag bits are those of the symbol's form, and case A does not read the disparity
of a balanced code word. -/
theorem encoderStructure : Obligations.EncoderStructure := by
  refine ⟨fun v d => ⟨tmds_getLsbD_8 v d, tmds_getLsbD_9_iff v d, tmds_getLsbD_9_of_caseA,
    fun hbal => ⟨?disparity, fun d' => ?symbol⟩⟩, balanced_count⟩
  case disparity => rw [tmds_of_balanced hbal]
  case symbol => rw [tmds_of_balanced hbal, tmds_of_balanced hbal]

/-! ## ENC (R165) -/

theorem execEnc_of_inRange {s : State} (hlo : -8 ≤ encDispIn (sources s).regs.encIn)
    (hhi : encDispIn (sources s).regs.encIn ≤ 8) :
    execEnc s = .next (finish { s with
      encSymbol := (tmds (encValue (sources s).regs.encIn) (encDispIn (sources s).regs.encIn)).1
      encDispOut := twos5
        (tmds (encValue (sources s).regs.encIn) (encDispIn (sources s).regs.encIn)).2 }) :=
  if_neg (by omega)

theorem execEnc_of_outOfRange {s : State}
    (hout : encDispIn (sources s).regs.encIn < -8 ∨ 8 < encDispIn (sources s).regs.encIn) :
    execEnc s = .next (invalidInput .dispRange s) :=
  if_pos hout

/-- Settles O17: ENC finishes with its result in range and with InvalidInput(DISP_RANGE) outside. -/
theorem encCommand : Obligations.EncCommand := by
  rintro s v d rfl rfl
  exact ⟨fun ⟨hlo, hhi⟩ => execEnc_of_inRange hlo hhi, fun hout =>
    execEnc_of_outOfRange (by rw [encDispIn]; omega)⟩

end Sys2Proof.Machine

/-! PROOFS. The LUT Builder and BUILD_LUT (41_lut_builder.md). -/

namespace Sys2Proof.Machine

/-! ## The table's layout (30_encoding.md R107) -/

/-- A table of m rows of n elements holds element j of row i at the index n i + j. -/
theorem getElem?_flatMap_range {α : Type} {n : Nat} {row : Nat → List α}
    (hlen : ∀ i, (row i).length = n) {m i j : Nat} (hi : i < m) (hj : j < n) :
    ((List.range m).flatMap row)[n * i + j]? = (row i)[j]? := by
  induction m with
  | zero => omega
  | succ m ih =>
    have hrows : ((List.range m).flatMap row).length = n * m := by
      simp [List.length_flatMap, hlen, Nat.mul_comm]
    rw [List.range_succ, List.flatMap_append, List.flatMap_singleton]
    obtain hlast | rfl := Nat.lt_succ_iff_lt_or_eq.1 hi
    · have hbefore : n * i + j < n * m := calc
        n * i + j < n * (i + 1) := by rw [Nat.mul_succ]; omega
        _ ≤ n * m := Nat.mul_le_mul_left n hlast
      rw [List.getElem?_append_left (by rwa [hrows]), ih hlast]
    · rw [← hrows, List.getElem?_append_right (Nat.le_add_right _ _), Nat.add_sub_cancel_left]

/-- Slot b of colour c stands at the words 64 b + 2 c and after. -/
theorem lutWords_getElem? (p : Params) {b c j : Nat} (hb : b < 16) (hc : c < 32) (hj : j < 2) :
    (lutWords p)[64 * b + (2 * c + j)]? = (lutSlot p b c)[j]? := by
  have hrow : ∀ b, ((List.range 32).flatMap fun c => lutSlot p b c).length = 64 := by
    simp [List.length_flatMap]
  rw [lutWords, getElem?_flatMap_range hrow hb (by omega),
    getElem?_flatMap_range (lutSlot_length p b) hc hj]

/-- The index {b, c, 0} of the rule: its fields do not overlap. -/
theorem lutIndex_toNat (c : BitVec 5) (b : BitVec 4) :
    ((c.setWidth 10 <<< 1) ||| (b.setWidth 10 <<< 6)).toNat = 64 * b.toNat + 2 * c.toNat := by
  have hcolour : (c.setWidth 10 <<< 1).toNat = 2 * c.toNat := by bv_omega
  have hbucket : (b.setWidth 10 <<< 6).toNat = 2 ^ 6 * b.toNat := by bv_omega
  rw [BitVec.toNat_or, hcolour, hbucket, Nat.or_comm,
    ← Nat.two_pow_add_eq_or_of_lt (by omega)]

/-! ## The slots (41_lut_builder.md R184, R185) -/

theorem lutSlot_of_le (p : Params) {b : Nat} (hb : b ≤ 8) (c : BitVec 5) :
    lutSlot p b c.toNat = lutEntry (lutValue p c) (bucketDisparity b) := by
  rw [lutSlot, if_pos hb, BitVec.ofNat_toNat, BitVec.setWidth_eq]

theorem lutSlot_of_gt (p : Params) {b : Nat} (hb : 8 < b) (c : Nat) :
    lutSlot p b c = [0#32, 0#32] :=
  if_neg (by omega)

/-! ## BUILD_LUT (41_lut_builder.md R187) -/

/-- After BUILD_LUT, LUT_MEM holds each slot in its place. -/
theorem memGet_lutMem_of_buildLut {s t : State} (h : exec .buildLut s = .next t) {b c j : Nat}
    (hb : b < 16) (hc : c < 32) (hj : j < 2) :
    memGet t.lutMem (64 * b + (2 * c + j)) = (lutSlot s.params b c)[j]? := by
  cases h
  rw [finish_lutMem, memGet_memPut, if_pos (by rw [lutWords_length]; omega), Nat.sub_zero,
    lutWords_getElem? s.params hb hc hj]

/-- Settles O19: the index of the rule is 64 b + 2 c, where LUT_MEM holds the slot's two words: the
entry of the converted and flipped value up to bucket 8, and zeros after it. -/
theorem buildLutStoresTable : Obligations.BuildLutStoresTable := by
  intro s
  obtain ⟨t, ht⟩ := exec_next .buildLut s
  refine ⟨t, ht, by cases ht; rfl, ?_⟩
  rintro c b i v0 v e0 e1 e2 rfl rfl rfl rfl rfl rfl
  have hword0 := memGet_lutMem_of_buildLut ht b.isLt c.isLt (j := 0) (by decide)
  have hword1 := memGet_lutMem_of_buildLut ht b.isLt c.isLt (j := 1) (by decide)
  rw [lutIndex_toNat, Nat.add_assoc]
  refine ⟨fun hb => ?entry, fun hb => ?zero⟩
  case entry =>
    rw [lutSlot_of_le _ hb] at hword0 hword1
    exact ⟨hword0, hword1⟩
  case zero =>
    rw [lutSlot_of_gt _ hb] at hword0 hword1
    exact ⟨hword0, hword1⟩

end Sys2Proof.Machine

/-! PROOFS. The Bit Packer, PACK and UNPACK (42_bit_packer.md). -/

namespace Sys2Proof.Machine

/-! ## The bits of the unpacked symbols (42_bit_packer.md R202, R203) -/

/-- The symbols of any number of groups, by induction on the groups: the first 16 are those of the
first five words, and the others are those of the remaining words. -/
theorem unpackGroups_bit (g : Nat) (ws : List Word) {i k : Nat} (hi : i < 16 * g) (hk : k < 10) :
    ((unpackGroups g ws).getD i 0#10).getLsbD k =
      (ws.getD ((10 * i + k) / 32) 0#32).getLsbD ((10 * i + k) % 32) := by
  induction g generalizing ws i with
  | zero => omega
  | succ g ih =>
    rw [unpackGroups]
    by_cases hfirst : i < 16
    · have hword : (10 * i + k) / 32 < 5 := by omega
      rw [List.getD_append _ _ _ _ hfirst, unpack16_bit _ _ _ hfirst hk]
      simp [List.getD_eq_getElem?_getD, hword]
    · obtain ⟨j, rfl⟩ := Nat.exists_eq_add_of_le (Nat.le_of_not_lt hfirst)
      have hword : (10 * (16 + j) + k) / 32 = 5 + (10 * j + k) / 32 := by omega
      have hbit : (10 * (16 + j) + k) % 32 = (10 * j + k) % 32 := by omega
      rw [List.getD_append_right _ _ _ _ (by simp), unpack16_length, Nat.add_sub_cancel_left,
        ih _ (by omega), hword, hbit]
      simp [List.getD_eq_getElem?_getD]

/-- The first n symbols stand, whole, in the started groups. -/
theorem unpackSymbols_getD (ws : List Word) {n i : Nat} (hi : i < n) :
    (unpackSymbols ws n).getD i 0#10 = (unpackGroups (groupsOf n) ws).getD i 0#10 := by
  simp [unpackSymbols, List.getD_eq_getElem?_getD, hi]

theorem le_groupsOf (n : Nat) : n ≤ 16 * groupsOf n := by
  unfold groupsOf
  omega

/-- Settles O22: the first n symbols are symbols of the started groups. -/
theorem unpackedStreamBits : Obligations.UnpackedStreamBits := by
  refine fun ws n => ⟨unpackSymbols_length ws n, fun i k hi hk => ?_⟩
  rw [unpackSymbols_getD ws hi, unpackGroups_bit _ ws (hi.trans_le (le_groupsOf n)) hk]

/-! ## The round trips (42_bit_packer.md R205) -/

/-- Lists of one length are equal when they hold the same elements below it. -/
theorem eq_of_getD_eq {α : Type} {l l' : List α} (d : α) (hlen : l.length = l'.length)
    (h : ∀ i < l.length, l.getD i d = l'.getD i d) : l = l' :=
  List.ext_getElem hlen fun i hi hi' => by
    rw [← List.getD_eq_getElem l d hi, h i hi, List.getD_eq_getElem l' d hi']

/-- Unpacking g groups gives the packed symbols back, and zero where the sequence was padded. -/
theorem unpackGroups_packGroups_getD {g : Nat} (s : List Symbol) {i : Nat} (hi : i < 16 * g) :
    (unpackGroups g (packGroups g s)).getD i 0#10 = s.getD i 0#10 := by
  refine BitVec.eq_of_getLsbD_eq fun k hk => ?_
  have hsym : (10 * i + k) / 10 = i := by omega
  have hbit : (10 * i + k) % 10 = k := by omega
  rw [unpackGroups_bit g _ hi hk, packGroups_bit g s _ (by omega), hsym, hbit]

/-- Packing symbols that agree with the unpacked ones, up to zero padding, gives the words back. -/
theorem packGroups_eq_of_getD_eq {g : Nat} {ws : List Word} {s : List Symbol}
    (hlen : ws.length = 5 * g)
    (h : ∀ i < 16 * g, s.getD i 0#10 = (unpackGroups g ws).getD i 0#10) : packGroups g s = ws := by
  refine eq_of_getD_eq 0#32 (by rw [packGroups_length, hlen]) fun j hj => ?_
  rw [packGroups_length] at hj
  refine BitVec.eq_of_getLsbD_eq fun k hk => ?_
  have hword : (32 * j + k) / 32 = j := by omega
  have hbit : (32 * j + k) % 32 = k := by omega
  have hpacked := packGroups_bit g s (32 * j + k) (by omega)
  have hunpacked := unpackGroups_bit g ws (i := (32 * j + k) / 10) (k := (32 * j + k) % 10)
    (by omega) (by omega)
  rw [Nat.div_add_mod] at hunpacked
  rw [h _ (by omega), hunpacked, hword, hbit] at hpacked
  exact hpacked

theorem unpackSymbols_packSymbols (s : List Symbol) :
    unpackSymbols (packSymbols s) s.length = s := by
  refine eq_of_getD_eq 0#10 (unpackSymbols_length _ _) fun i hi => ?_
  rw [unpackSymbols_length] at hi
  rw [unpackSymbols_getD _ hi, packSymbols,
    unpackGroups_packGroups_getD s (hi.trans_le (le_groupsOf _))]

/-- Packing the first n unpacked symbols replaces the padded tail by zeros, and nothing else. -/
theorem packSymbols_unpackSymbols_iff {n : Nat} {ws : List Word} (hlen : ws.length = 5 * groupsOf n) :
    packSymbols (unpackSymbols ws n) = ws ↔
      ∀ i, n ≤ i → i < 16 * groupsOf n → (unpackGroups (groupsOf n) ws).getD i 0#10 = 0#10 := by
  have htail : ∀ i, n ≤ i → (unpackSymbols ws n).getD i 0#10 = 0#10 := fun i hi =>
    List.getD_eq_default _ _ (by rwa [unpackSymbols_length])
  rw [packSymbols, unpackSymbols_length]
  refine ⟨fun hback i hn hi => ?_, fun hzero => ?_⟩
  · calc (unpackGroups (groupsOf n) ws).getD i 0#10
      _ = (unpackGroups (groupsOf n)
            (packGroups (groupsOf n) (unpackSymbols ws n))).getD i 0#10 := by rw [hback]
      _ = (unpackSymbols ws n).getD i 0#10 := unpackGroups_packGroups_getD _ hi
      _ = 0#10 := htail i hn
  · refine packGroups_eq_of_getD_eq hlen fun i hi => ?_
    by_cases hn : i < n
    · exact unpackSymbols_getD ws hn
    · rw [htail i (by omega), hzero i (by omega) hi]

/-- Settles O23: the stream of the packed symbols is theirs, so unpacking reads them back; a padded
position comes back as zero. -/
theorem packRoundTrip : Obligations.PackRoundTrip := by
  refine ⟨unpackSymbols_packSymbols, fun n ws hlen => ?_⟩
  rw [packSymbols_unpackSymbols_iff hlen]
  refine forall₃_congr fun i _ hi => ?_
  rw [← unpackGroups_length (groupsOf n) ws] at hi
  rw [List.getD_eq_getElem _ _ hi, List.getElem?_eq_getElem hi, Option.some.injEq]

/-! ## PACK and UNPACK (42_bit_packer.md R206 to R208) -/

/-- A block read of the first elements answers the list they hold. -/
theorem memGetRange_of_holds {w n : Nat} (element : Nat → Element) {m : Memory w}
    {vs : List (BitVec w)} (hlen : vs.length = n) (h : ∀ i < n, memGet m i = vs[i]?) :
    memGetRange element m 0 n = .ok vs := by
  subst hlen
  refine memGetRange_of_written element m 0 vs fun i hi => ?_
  rw [Nat.zero_add, h i hi, List.getElem?_eq_getElem hi]

/-- A block write at the start of a memory. -/
theorem memGet_memPut_zero {w : Nat} (m : Memory w) (vs : List (BitVec w)) (i : Nat) :
    memGet (memPut m 0 vs) i = if i < vs.length then vs[i]? else memGet m i := by
  simp [memGet_memPut]

theorem execPack_of_tooMany {n : BitVec 16} (hn : 1024 < n.toNat) (s : State) :
    execPack n s = .next (invalidInput .packCount s) :=
  if_pos hn

theorem execPack_of_holds {n : BitVec 16} {s : State} {syms : List Symbol} (hn : n.toNat ≤ 1024)
    (hlen : syms.length = n.toNat) (h : ∀ i < n.toNat, memGet (sources s).packIn i = syms[i]?) :
    execPack n s = .next (finish { s with packOut := memPut s.packOut 0 (packSymbols syms) }) := by
  rw [execPack, if_neg (by omega), memGetRange_of_holds .packIn hlen h]

theorem execUnpack_of_tooMany {n : BitVec 16} (hn : 1024 < n.toNat) (s : State) :
    execUnpack n s = .next (invalidInput .packCount s) :=
  if_pos hn

theorem execUnpack_of_holds {n : BitVec 16} {s : State} {ws : List Word} (hn : n.toNat ≤ 1024)
    (hlen : ws.length = 5 * groupsOf n.toNat)
    (h : ∀ i < ws.length, memGet (sources s).packOut i = ws[i]?) :
    execUnpack n s =
      .next (finish { s with packIn := memPut s.packIn 0 (unpackSymbols ws n.toNat) }) := by
  rw [execUnpack, if_neg (by omega), memGetRange_of_holds .packOut hlen (hlen ▸ h)]

/-- Settles O24: a count above 1024 is InvalidInput(PACK_COUNT); otherwise PACK_OUT takes one block of
5 G words. -/
theorem packCommand : Obligations.PackCommand := by
  refine fun s n => ⟨fun hn => execPack_of_tooMany hn s, fun syms hn hlen h =>
    ⟨_, execPack_of_holds hn hlen h, rfl, fun j => ?_⟩⟩
  rw [finish_packOut, memGet_memPut_zero, packSymbols_length, hlen, groupsOf]

/-- Settles O25: a count above 1024 is InvalidInput(PACK_COUNT); otherwise PACK_IN takes one block of
n symbols. -/
theorem unpackCommand : Obligations.UnpackCommand := by
  refine fun s n => ⟨fun hn => execUnpack_of_tooMany hn s, fun ws hn hlen h =>
    ⟨_, execUnpack_of_holds hn hlen h, rfl, fun i => ?_⟩⟩
  rw [finish_packIn, memGet_memPut_zero, unpackSymbols_length]

end Sys2Proof.Machine

/-! PROOFS. The Blanking Framer and BUILD_REGION (43_blanking_framer.md). -/

namespace Sys2Proof.Machine

/-! ## The segments (43_blanking_framer.md R222) -/

/-- The sync pulse is the body, whatever the rest of the timing. -/
theorem segmentOf_eq_body_iff {r : HostRegs} {j : Nat} :
    segmentOf r j = .body ↔ r.hFp.toNat ≤ j ∧ j < r.hFp.toNat + r.hPulse.toNat := by
  simp only [segmentOf]
  split_ifs
  all_goals
    simp only [false_iff, true_iff]
    omega

/-- The front porch, the pulse and the back porch of an accepted timing make up the region
(43_blanking_framer.md R221). -/
theorem regionLength_of_timingValid {r : HostRegs} (h : timingValid r = true) :
    regionLength r = r.hFp.toNat + r.hPulse.toNat + r.hBp.toNat := by
  obtain ⟨htotal, -⟩ := (timingValid_iff r).1 h
  unfold regionLength
  omega

/-- Settles O31: the eight ranges `segmentOf` tries in turn cover the region, and an accepted timing
leaves room for the ten positions before the pulse and the twelve after it, so none of them is cut. -/
theorem segmentLayout : Obligations.SegmentLayout := by
  rintro r j fp pu bp len hvalid rfl rfl rfl rfl hj
  have hlen := regionLength_of_timingValid hvalid
  obtain ⟨-, hfp, hbp, -⟩ := (timingValid_iff r).1 hvalid
  refine ⟨hlen, by omega, ?_⟩
  simp only [segmentOf]
  split_ifs
  all_goals
    simp only [false_iff, true_iff]
    omega

/-! ## The sync levels (43_blanking_framer.md R223, R224) -/

theorem hsLevel_eq_hsAct_iff {r : HostRegs} {j : Nat} :
    hsLevel r j = r.hsAct ↔ r.hFp.toNat ≤ j ∧ j < r.hFp.toNat + r.hPulse.toNat := by
  unfold hsLevel
  split_ifs with hpulse <;> simp [hpulse]

theorem vsLevel_eq_vsAct_iff {r : HostRegs} {kind : RegionKind} {j : Nat} :
    vsLevel r kind j = r.vsAct ↔ vsyncOn r kind j = true := by
  unfold vsLevel
  split_ifs with hon <;> simp [hon]

/-- From the start of the pulse on, vertical sync is what the kind has in its body. -/
theorem vsyncOn_of_le {r : HostRegs} {j : Nat} (kind : RegionKind) (hj : r.hFp.toNat ≤ j) :
    vsyncOn r kind j = bodyVsync kind := by
  cases kind with
  | normal | vsActive => rfl
  | vsEnter => exact decide_eq_true hj
  | vsExit => exact decide_eq_false (Nat.not_lt.2 hj)

theorem vsLevel_of_le {r : HostRegs} {j : Nat} (kind : RegionKind) (hj : r.hFp.toNat ≤ j) :
    vsLevel r kind j = if bodyVsync kind then r.vsAct else !r.vsAct := by
  rw [vsLevel, vsyncOn_of_le kind hj]

/-- Settles O33: a level is the active one exactly where its sync is on; VSYNC changes at most at the
start of the pulse. -/
theorem syncLevelsByPosition : Obligations.SyncLevelsByPosition := by
  rintro r j fp pu rfl rfl
  refine ⟨hsLevel_eq_hsAct_iff, rfl, ?vsEnter, rfl, ?vsExit, fun kind hj _ => vsLevel_of_le kind hj⟩
  case vsEnter => rw [vsLevel_eq_vsAct_iff]; exact decide_eq_true_iff
  case vsExit => rw [vsLevel_eq_vsAct_iff]; exact decide_eq_true_iff

/-! ## The symbols (43_blanking_framer.md R225 to R231) -/

/-- Only the body of a data island carries packets. -/
theorem regionSym_of_body {r : HostRegs} {j : Nat} (hj : segmentOf r j = .body) (p : Params)
    (st : Streams) (kind : RegionKind) (c : Channel) :
    regionSym p r st kind true c j = packetSym p r st kind c j :=
  if_pos ⟨hj, rfl⟩

/-- Settles O32: in each segment the symbol is the packet's in the body of a data island, and the
plain symbol of the channel everywhere else. -/
theorem channelContents : Obligations.ChannelContents := by
  rintro p r st kind di j hs vs rfl rfl
  refine ⟨?_, ?_, ?_⟩ <;>
    cases hseg : segmentOf r j with
    | body => cases di <;> simp [regionSym, plainSym0, plainSym1, plainSym2, hseg]
    | fpPad | diPre | diGbLead | diGbTrail | bpPad | vPre | vGb =>
      simp [regionSym, plainSym0, plainSym1, plainSym2, hseg]

/-- Settles O35: SYNC_CFG moves no segment, and on channels 1 and 2 neither a packet symbol nor a
plain one reads a sync level. -/
theorem channelsOneTwoKindFree : Obligations.ChannelsOneTwoKindFree := by
  intro p r hs vs st kind kind' di c j hc
  have hseg : segmentOf { r with hsAct := hs, vsAct := vs } j = segmentOf r j := rfl
  have hpacket : packetSym p { r with hsAct := hs, vsAct := vs } st kind' c j =
      packetSym p r st kind c j := by
    cases c with
    | ch0 => contradiction
    | ch1 | ch2 => rfl
  unfold regionSym
  rw [hseg, hpacket]
  cases c with
  | ch0 => contradiction
  | ch1 | ch2 => rfl

/-! ## The packets of a data-island body (43_blanking_framer.md R228 to R230) -/

section Packets

variable {r : HostRegs} {n : Nat} (p : Params) (st : Streams) (kind : RegionKind)

/-- The first 32 body positions carry the AVI packet, its header stream chosen by the VSYNC level. -/
theorem packetSym_of_lt (hn : n < 32) (c : Channel) :
    packetSym p r st kind c (r.hFp.toNat + n) = (match c with
      | .ch0 => if bodyVsync kind then st.headerVsync else st.header
      | .ch1 => st.bodyLow
      | .ch2 => st.bodyHigh).getD n 0#10 := by
  have hpacket : n / 32 = 0 := Nat.div_eq_of_lt hn
  have hsym : n % 32 = n := Nat.mod_eq_of_lt hn
  cases c with
  | ch0 =>
    simp only [packetSym, Nat.add_sub_cancel_left, hpacket, hsym, if_true, vsLevel_eq_vsAct_iff,
      vsyncOn_of_le kind (Nat.le_add_right _ n)]
    split_ifs <;> rfl
  | ch1 | ch2 => simp [packetSym, hpacket, hsym]

/-- The later body positions carry null packets. -/
theorem packetSym_of_ge (hn : 32 ≤ n) (c : Channel) :
    packetSym p r st kind c (r.hFp.toNat + n) = (match c with
      | .ch0 => packetHeaderSym p (n % 32) false (vsLevel r kind (r.hFp.toNat + n))
          (hsLevel r (r.hFp.toNat + n))
      | .ch1 => terc4Sym p 0#4
      | .ch2 => terc4Sym p 0#4) := by
  have hpacket : n / 32 ≠ 0 := by omega
  cases c <;> simp [packetSym, hpacket]

end Packets

/-- Settles O34: the positions of the pulse are the body; body position n carries packet n div 32, with
HSYNC active and the VSYNC level of the kind's body. -/
theorem packetBody : Obligations.PacketBody := by
  intro p r st kind n hn
  have hpulse : r.hFp.toNat ≤ r.hFp.toNat + n ∧
      r.hFp.toNat + n < r.hFp.toNat + r.hPulse.toNat := by omega
  have hbody := segmentOf_eq_body_iff.2 hpulse
  refine ⟨fun havi => ?avi, fun hnull => ?null⟩
  case avi => simp only [regionSym_of_body hbody, packetSym_of_lt p st kind havi, and_self]
  case null =>
    simp only [regionSym_of_body hbody, packetSym_of_ge p st kind hnull, packetHeaderSym,
      vsLevel_of_le kind hpulse.1, hsLevel_eq_hsAct_iff.2 hpulse, and_self]

/-! ## The checks of BUILD_REGION (43_blanking_framer.md R221, R232, R236) -/

theorem execBuildRegion_of_error {s : State} {di : Bool} {code : ErrCode}
    (h : regionError (sources s).regs (sources s).aviValid di = some code) (kind : RegionKind) :
    exec (.buildRegion kind di) s = .next (invalidInput code s) := by
  rw [exec, execBuildRegion, h]

/-- Settles O29: over the integers the conditions on the timing are those of `timingValid`, and HT - HA
is then the region's length; `regionError` makes the checks in this order. -/
theorem regionChecksInOrder : Obligations.RegionChecksInOrder := by
  rintro s kind di ha fp pu bp ht ok rfl rfl rfl rfl rfl hok
  have htiming : ok ↔ timingValid (sources s).regs = true := by
    rw [hok, timingValid_iff, regionLength]
    omega
  have hgroups (hvalid : timingValid (sources s).regs = true) :
      ((sources s).regs.hTotal.toNat - (sources s).regs.hActive.toNat : Int) % 16 = 0 ↔
        regionLength (sources s).regs % 16 = 0 := by
    obtain ⟨htotal, -⟩ := (timingValid_iff _).1 hvalid
    unfold regionLength
    omega
  rw [htiming]
  refine ⟨fun hinvalid => ?timing, fun hvalid hdi hpartial => ?diLength,
    fun hvalid hdi hwhole hshort => ?diPulse, fun hvalid hdi hwhole hlong havi => ?aviNotBuilt⟩ <;>
    refine execBuildRegion_of_error ?_ kind
  case timing => simp [regionError, hinvalid]
  case diLength => simp [regionError, hvalid, hdi, (hgroups hvalid).not.1 hpartial]
  case diPulse =>
    have hpulse : (sources s).regs.hPulse.toNat < 32 := by omega
    simp [regionError, hvalid, hdi, (hgroups hvalid).1 hwhole, hpulse]
  case aviNotBuilt =>
    have hpulse : ¬(sources s).regs.hPulse.toNat < 32 := by omega
    simp [regionError, hvalid, hdi, (hgroups hvalid).1 hwhole, hpulse, havi]

/-! ## The stored region (43_blanking_framer.md R233) -/

/-- Without a data island a valid timing is enough to store the region. -/
theorem execBuildRegion_of_plain {s : State} (hvalid : timingValid (sources s).regs = true)
    (kind : RegionKind) :
    exec (.buildRegion kind false) s = .next (storeRegion noStreams kind false s) := by
  have hchecks : regionError (sources s).regs (sources s).aviValid false = none :=
    regionError_eq_none.2 ⟨hvalid, nofun⟩
  simp [exec, execBuildRegion, hchecks]

/-- With a data island the region takes its streams from the 40 words of INFO_MEM. -/
theorem execBuildRegion_of_island {s : State} {ws : List Word}
    (hvalid : timingValid (sources s).regs = true)
    (hgroups : regionLength (sources s).regs % 16 = 0) (hpulse : 32 ≤ (sources s).regs.hPulse.toNat)
    (havi : (sources s).aviValid = true) (hlen : ws.length = 40)
    (hws : ∀ i < 40, memGet (sources s).infoMem i = ws[i]?) (kind : RegionKind) :
    exec (.buildRegion kind true) s = .next (storeRegion (streamsOf ws) kind true s) := by
  have hchecks : regionError (sources s).regs (sources s).aviValid true = none :=
    regionError_eq_none.2 ⟨hvalid, fun _ => ⟨hgroups, hpulse, havi⟩⟩
  simp [exec, execBuildRegion, hchecks, memGetRange_of_holds .infoMem hlen hws]

/-- Writing bit k of a 4-bit field leaves its other bits alone. -/
theorem regionBit_putRegionBit (field : BitVec 4) {k j : Nat} (hj : j < 4) (b : Bool) :
    regionBit (putRegionBit field k b) j = if j = k then b else regionBit field j := by
  have hbit : (1#4 <<< k).getLsbD j = decide (j = k) := by
    simp only [BitVec.getLsbD_shiftLeft, BitVec.getLsbD_one, hj]
    grind
  cases b with
  | true =>
    simp only [regionBit, putRegionBit, if_true, BitVec.getLsbD_or, hbit]
    by_cases hjk : j = k <;> simp [hjk]
  | false =>
    simp only [regionBit, putRegionBit, Bool.false_eq_true, if_false, BitVec.getLsbD_and,
      BitVec.getLsbD_not, hbit, hj]
    by_cases hjk : j = k <;> simp [hjk]

/-- Settles O30: the command ends with `storeRegion`, which writes three blocks of REGION_MEM and one
bit of each of REGION_VALID and REGION_DI. -/
theorem regionStored : Obligations.RegionStored := by
  rintro s kind di st r len k rfl rfl htotal hfp hbp rfl hlong hsource
  have hvalid : timingValid (sources s).regs = true :=
    (timingValid_iff _).2 ⟨htotal, hfp, hbp, hlong⟩
  have hexec : exec (.buildRegion kind di) s = .next (storeRegion st kind di s) := by
    obtain ⟨rfl, rfl⟩ | ⟨rfl, hgroups, hpulse, havi, ws, hlen, hws, rfl⟩ := hsource
    · exact execBuildRegion_of_plain hvalid kind
    · exact execBuildRegion_of_island hvalid hgroups hpulse havi hlen hws kind
  have hfit : 5 * groupsOf (regionLength (sources s).regs) ≤ 256 :=
    (groupsOf_timing hvalid).trans (by decide)
  exact ⟨_, hexec, rfl,
    fun j hj => ⟨regionBit_putRegionBit _ hj true, regionBit_putRegionBit _ hj di⟩,
    fun c w hw => memGet_putRegion hfit c w hw, fun i hi => memGet_putRegion_outside i hi⟩

end Sys2Proof.Machine

/-! PROOFS. The InfoFrame Builder and BUILD_AVI (44_infoframe_builder.md). -/

namespace Sys2Proof.Machine

/-! ## The bytes of the body channels (44_infoframe_builder.md R251, R252, R254) -/

/-- The body adds nothing but VIC to the checksum. -/
theorem byteSum_aviBody (vic : Byte) : byteSum (aviBody vic) = vic := by
  simp [byteSum, aviBody]

/-- The byte sequence by position: the checksum first, and VIC, body[3], as byte 4. -/
theorem channelBytes_eq_map_range {p : Params} {vic : Byte} {byteAt : Nat → Byte}
    (hbyte : ∀ k, byteAt k = if k = 0 then
        0#8 - (headerByte p 0 + headerByte p 1 + headerByte p 2 + vic)
      else if k = 4 then vic else 0x00#8) :
    channelBytes p vic = (List.range 32).map byteAt := by
  obtain rfl := funext hbyte
  rw [channelBytes, packetChecksum, byteSum_aviBody]
  rfl

/-! ## The places of the four streams (44_infoframe_builder.md R257) -/

/-- A stream of 32 symbols takes ten words. -/
theorem packSymbols_length_of_packet {syms : List Symbol} (h : syms.length = 32) :
    (packSymbols syms).length = 10 := by
  rw [packSymbols_length, h, groupsOf]

/-- Past a block of n elements a list goes on with what follows the block. -/
theorem getElem?_append_add {α : Type*} {as bs : List α} {n : Nat} (h : as.length = n) (i : Nat) :
    (as ++ bs)[n + i]? = bs[i]? := by
  rw [List.getElem?_append_right (by omega), h, Nat.add_sub_cancel_left]

/-- The words of stream t start at word 10 t: header with VSYNC inactive, header with VSYNC active, low
nibbles, high nibbles. -/
theorem infoWords_getElem? (p : Params) (vic : Byte) (hs vs : Bool) {w : Nat} (hw : w < 10) :
    (infoWords p vic hs vs)[w]? = (packSymbols (headerStream p (!vs) hs))[w]? ∧
      (infoWords p vic hs vs)[10 + w]? = (packSymbols (headerStream p vs hs))[w]? ∧
      (infoWords p vic hs vs)[20 + w]? = (packSymbols (lowStream p vic))[w]? ∧
      (infoWords p vic hs vs)[30 + w]? = (packSymbols (highStream p vic))[w]? := by
  have hheader (vs' : Bool) := packSymbols_length_of_packet (headerStream_length p vs' hs)
  have hlow := packSymbols_length_of_packet (lowStream_length p vic)
  have h20 : 20 + w = 10 + (10 + w) := by omega
  have h30 : 30 + w = 10 + (10 + (10 + w)) := by omega
  rw [infoWords, List.append_assoc, List.append_assoc, h20, h30]
  simp only [getElem?_append_add (hheader _), getElem?_append_add hlow, and_true]
  refine ⟨?header, ?headerVsync, ?low⟩ <;> apply List.getElem?_append_left
  case header | headerVsync => rwa [hheader]
  case low => rwa [hlow]

/-! ## BUILD_AVI (44_infoframe_builder.md R258) -/

/-- Settles O28: INFO_MEM takes the 40 words as one block, ten words to a stream; the header streams are
the statement's by definition, and the body streams are over the channel bytes by position. -/
theorem buildAviStoresStreams : Obligations.BuildAviStoresStreams := by
  rintro s r byteAt rfl hbyte
  have hbytes := channelBytes_eq_map_range hbyte
  refine ⟨_, rfl, rfl, fun w hw => ?streams, fun i hi => ?outside⟩
  case streams =>
    obtain ⟨hinactive, hactive, hlow, hhigh⟩ :=
      infoWords_getElem? s.params (sources s).regs.vic (sources s).regs.hsAct
        (sources s).regs.vsAct hw
    rw [lowStream, hbytes, List.map_map] at hlow
    rw [highStream, hbytes, List.map_map] at hhigh
    simp only [finish_infoMem, memGet_memPut_zero, infoWords_length]
    iterate 4 rw [if_pos (by omega)]
    exact ⟨hinactive, hactive, hlow, hhigh⟩
  case outside =>
    rw [finish_infoMem, memGet_memPut_outside _ _ _ _ (by rw [infoWords_length]; omega)]

end Sys2Proof.Machine

/-! PROOFS. NOP and the reserved commands (45_command_control.md R272, R273). -/

namespace Sys2Proof.Machine

/-! ## NOP (R272) -/

theorem exec_nop (s : State) : exec .nop s = .next (finish s) := rfl

theorem decodeWord_of_cmdOp_zero {w : Word} (hop : cmdOp w = 0x0#4) : decodeWord w = .nop := by
  obtain ⟨hnop, -⟩ := rowsChosenByOp w
  exact hnop.mp hop

/-- Completion undoes what issue did to BUSY and the pending command, and keeps the cleared ERR and
ERRCODE. -/
theorem finish_issueCommand (w : Word) (s : State) :
    finish (issueCommand w s) = { s with
      status := { s.status with busy := false, err := false, errCode := 0#4 }
      pending := none } := rfl

/-- Settles O37: a NOP only finishes, and a word with OP = 0 is one, so that of its issue the cleared
error alone remains. -/
theorem nopCommand : Obligations.NopCommand := by
  refine ⟨exec_nop, fun s w hop => ?_⟩
  rw [decodeWord_of_cmdOp_zero hop, exec_nop, finish_issueCommand]

/-! ## The reserved commands (R273) -/

theorem exec_of_reserved {i : Instr} {op : BitVec 4} (hi : i = .reserved7 ∨ i = .reserved8F op)
    (s : State) : exec i s = .next (invalidInput .reservedOp s) := by
  obtain rfl | rfl := hi
  case inl => rfl
  case inr => rfl

/-- The OPs from 7 up decode to the two reserved rows. -/
theorem decodeWord_of_seven_le {w : Word} (hop : 7 ≤ (cmdOp w).toNat) :
    decodeWord w = .reserved7 ∨ decodeWord w = .reserved8F (cmdOp w) := by
  obtain ⟨-, -, -, -, -, -, -, hseven, -⟩ := rowsChosenByOp w
  obtain h7 | h8 := hop.eq_or_lt
  · exact .inl (hseven.mp (BitVec.eq_of_toNat_eq h7.symm))
  · exact .inr (decodeWord_eq_reserved8F_iff.mpr h8)

/-- Settles O38: both reserved constructors complete with InvalidInput(RESERVED_OP), and an OP from 7
up decodes to one of them. -/
theorem reservedCommand : Obligations.ReservedCommand :=
  ⟨fun s _ hop => exec_of_reserved (decodeWord_of_seven_le hop) s, fun s _ _ hi =>
    exec_of_reserved hi s⟩

end Sys2Proof.Machine

/-! PROOFS. Commands that complete with an error, and host writes without effect
(60_exceptions.md R302, R306; 20_memory.md R76). -/

namespace Sys2Proof.Machine

/-! ## Completion with InvalidInput (R301, R302) -/

/-- A completion leaves ERR alone or is InvalidInput: no success and no unwritten source touches it. -/
theorem exec_err_cases {i : Instr} {s t : State} (h : exec i s = .next t) :
    t.status.err = s.status.err ∨ ∃ code, t = invalidInput code s := by
  cases i with
  | nop | buildLut | buildAvi => cases h; exact .inl rfl
  | enc =>
    obtain ⟨-, rfl⟩ | ⟨-, rfl⟩ := execEnc_cases h
    · exact .inr ⟨_, rfl⟩
    · exact .inl rfl
  | buildRegion kind di =>
    obtain ⟨code, -, rfl⟩ | ⟨_, -, -, -, rfl⟩ | ⟨_, -, -, -, rfl⟩ | ⟨-, -, rfl⟩ :=
      execBuildRegion_cases h
    · exact .inr ⟨code, rfl⟩
    all_goals exact .inl rfl
  | pack n =>
    obtain ⟨-, rfl⟩ | ⟨_, -, -, rfl⟩ | ⟨_, -, -, rfl⟩ := execPack_cases h
    · exact .inr ⟨_, rfl⟩
    all_goals exact .inl rfl
  | unpack n =>
    obtain ⟨-, rfl⟩ | ⟨_, -, -, rfl⟩ | ⟨_, -, -, rfl⟩ := execUnpack_cases h
    · exact .inr ⟨_, rfl⟩
    all_goals exact .inl rfl
  | reserved7 | reserved8F => cases h; exact .inr ⟨_, rfl⟩

/-- The codes InvalidInput records are 1 to 7 (R301). -/
theorem errCodeBits_bounds (code : ErrCode) :
    1 ≤ (errCodeBits code).toNat ∧ (errCodeBits code).toNat ≤ 7 := by
  cases code <;> decide

/-- Settles O41: a completion that sets ERR is InvalidInput, which writes STATUS and the pending command
alone. -/
theorem errorsWriteNothing : Obligations.ErrorsWriteNothing := by
  intro i s t hexec hclear hset
  obtain hkept | ⟨code, rfl⟩ := exec_err_cases hexec
  · rw [hkept, hclear] at hset
    contradiction
  · exact ⟨rfl, errCodeBits_bounds code⟩

/-! ## Host writes without effect (R306; 20_memory.md R76) -/

/-- With BUSY = 1 a guarded write records the fault alone (R306). -/
theorem guardBusy_of_busy {s : State} (hbusy : s.status.busy = true) (reason : ContractReason)
    (t : State) : guardBusy reason s t = recordFault (.hostContract reason) s := by
  simp [guardBusy, hbusy]

/-- A legal write to a location the BUSY contract guards records the fault alone while BUSY = 1. -/
theorem hostWrite_of_busy {width : Width} {a : Addr} {loc : Loc} {reason : ContractReason} {v : Word}
    {s written : State} (ha : legalAccess width a = some loc)
    (hw : hostWriteLoc loc v s = guardBusy reason s written) (hbusy : s.status.busy = true) :
    hostWrite width a v s = recordFault (.hostContract reason) s := by
  rw [hostWrite_of_legalAccess ha, hw, guardBusy_of_busy hbusy]

/-- Settles O49: `guardBusy`, with the reason of its kind, stands before every write to a location that
takes one, and a write to a read-only location is the state itself. -/
theorem writesWithoutEffect : Obligations.WritesWithoutEffect := by
  intro s a v loc ha
  refine ⟨fun hbusy => ⟨?cmd, ?config, ?buffer⟩, ?readOnly⟩
  case cmd =>
    rintro rfl
    exact hostWrite_of_busy ha rfl hbusy
  case config =>
    simp only [List.mem_cons, List.not_mem_nil, or_false]
    rintro (rfl | rfl | rfl | rfl | rfl | rfl | rfl | rfl) <;> exact hostWrite_of_busy ha rfl hbusy
  case buffer =>
    rintro ⟨i, rfl | rfl⟩ <;> exact hostWrite_of_busy ha rfl hbusy
  case readOnly =>
    rw [hostWrite_of_legalAccess ha]
    rintro (rfl | rfl | ⟨i, rfl⟩ | ⟨i, rfl⟩ | ⟨i, rfl⟩ | ⟨i, rfl⟩ | ⟨i, rfl⟩ | ⟨k, c, w, rfl⟩) <;> rfl

end Sys2Proof.Machine

/-! PROOFS. What reset leaves, and the packet a valid region holds
(70_reset_and_hazards.md R340, R347). -/

namespace Sys2Proof.Machine

/-! ## Reset (R340) -/

theorem readReg_reset (r : Reg) : readReg State.reset r = 0#32 := by
  cases r <;> rfl

/-- A reset input leaves in the registers what power-up leaves there. -/
theorem readReg_resetCore (s : State) (r : Reg) : readReg (resetCore s) r = readReg State.reset r := by
  cases r <;> rfl

/-- Settles O8: both resets leave the same STATUS, registers, pending command and fault. -/
theorem resetState : Obligations.ResetState := by
  intro s t ht
  obtain ⟨hstatus, hpending, hfault, hreads⟩ : t.status = Status.reset ∧ t.pending = none ∧
      t.fault = none ∧ ∀ r, readReg t r = readReg State.reset r := by
    obtain rfl | rfl := ht
    · exact ⟨rfl, rfl, rfl, fun _ => rfl⟩
    · exact ⟨rfl, rfl, rfl, readReg_resetCore s⟩
  rw [hstatus]
  exact ⟨rfl, rfl, rfl, rfl, rfl, rfl, rfl, rfl, fun r => (hreads r).trans (readReg_reset r),
    hpending, hfault⟩

/-! ## The packet of a valid region (R347) -/

/-- The words of a region channel unpack to the region's symbols, position by position. -/
theorem unpackSymbols_regionWords_getElem? {r : HostRegs} {j : Nat} (hj : j < regionLength r)
    (p : Params) (st : Streams) (kind : RegionKind) (di : Bool) (c : Channel) :
    (unpackSymbols (regionWords p r st kind di c) (regionLength r))[j]? =
      some (regionSym p r st kind di c j) := by
  have hunpack := unpackSymbols_packSymbols
    ((List.range (regionLength r)).map (regionSym p r st kind di c))
  rw [List.length_map, List.length_range] at hunpack
  rw [regionWords, hunpack, List.getElem?_map, List.getElem?_range hj, Option.map_some]

/-- Where a validity bit stands, each channel's block of REGION_MEM holds the words of the region. -/
theorem memGet_regionMem_of_regionsCurrent {s : State} {kind : RegionKind} {di : Bool}
    (hregions : s.regionsCurrent)
    (hvalid : regionBit s.status.regionValid (kindIndex kind) = true)
    (hdi : regionBit s.status.regionDi (kindIndex kind) = di) (c : Channel) {w : Nat}
    (hw : w < 5 * groupsOf (regionLength s.regs)) :
    memGet s.regionMem (regionBase (kindIndex kind) (channelIndex c) + w) =
      (regionWords s.params s.regs (regionStreams s.params s.regs di) kind di c)[w]? := by
  subst hdi
  obtain ⟨-, hwords⟩ := hregions kind hvalid
  rw [List.getElem?_eq_getElem (by rwa [regionWords_length])]
  exact hwords c w _ (List.getElem?_eq_getElem _)

/-- The header stream of the packet is the one with the VSYNC level of the kind's body. -/
theorem header_aviStreams (p : Params) (r : HostRegs) (kind : RegionKind) :
    (if bodyVsync kind then (aviStreams p r).headerVsync else (aviStreams p r).header) =
      headerStream p (if bodyVsync kind then r.vsAct else !r.vsAct) r.hsAct := by
  split <;> rfl

theorem some_getD_of_packet {syms : List Symbol} (hlen : syms.length = 32) {q : Nat} (hq : q < 32)
    (d : Symbol) : some (syms.getD q d) = syms[q]? := by
  rw [← hlen] at hq
  rw [List.getD_eq_getElem _ _ hq, List.getElem?_eq_getElem hq]

/-- Settles O59: the words of REGION_MEM[k] are those of a region with the streams of the current VIC and
SYNC_CFG, and the first 32 symbols of its pulse, which the checks make long enough, are the packet's. -/
theorem packetConsistency : Obligations.PacketConsistency := by
  intro s kind q hinv hvalid hdi hq c
  obtain ⟨-, -, -, -, -, hregions⟩ := hinv
  obtain ⟨hchecks, -⟩ := hregions kind hvalid
  rw [hdi] at hchecks
  obtain ⟨htiming, hisland⟩ := regionError_eq_none.1 hchecks
  obtain ⟨-, hpulse, -⟩ := hisland rfl
  have hposition : s.regs.hFp.toNat + q < regionLength s.regs := by
    rw [regionLength_of_timingValid htiming]
    omega
  refine ⟨regionWords s.params s.regs (aviStreams s.params s.regs) kind true c,
    fun w hw => memGet_regionMem_of_regionsCurrent hregions hvalid hdi c hw, ?_⟩
  rw [unpackSymbols_regionWords_getElem? hposition]
  obtain ⟨hch0, hch1, hch2⟩ := (packetBody s.params s.regs (aviStreams s.params s.regs) kind q
    (hq.trans_le hpulse)).1 hq
  cases c with
  | ch0 => rw [hch0, header_aviStreams, some_getD_of_packet (headerStream_length ..) hq]
  | ch1 => rw [hch1, aviStreams, some_getD_of_packet (lowStream_length ..) hq]
  | ch2 => rw [hch2, aviStreams, some_getD_of_packet (highStream_length ..) hq]

end Sys2Proof.Machine

/-! PROOFS. The command word: decoding after encoding, and encoding after decoding
(30_encoding.md R111 to R114). -/

namespace Sys2Proof.Machine

/-! ## The fields of a command word (R111) -/

/-- Each bit of a command word is a bit of one field, or a reserved 0. -/
theorem cmdWord_getLsbD (count : BitVec 16) (di : Bool) (kind : BitVec 2) (op : BitVec 4) (i : Nat) :
    (cmdWord count di kind op).getLsbD i =
      if i < 4 then op.getLsbD i
      else if i < 6 then kind.getLsbD (i - 4)
      else if i = 6 then di
      else if i < 16 then false
      else count.getLsbD (i - 16) := by
  simp only [cmdWord, BitVec.getLsbD_append, BitVec.getLsbD_zero, BitVec.getLsbD_ofBool]
  grind

theorem cmdKind_cmdWord (count : BitVec 16) (di : Bool) (kind : BitVec 2) (op : BitVec 4) :
    cmdKind (cmdWord count di kind op) = kind := by
  refine BitVec.eq_of_getLsbD_eq fun i hi => ?_
  rw [cmdKind, BitVec.getLsbD_extractLsb', cmdWord_getLsbD, if_neg (by omega), if_pos (by omega),
    Nat.add_sub_cancel_left, decide_eq_true hi, Bool.true_and]

theorem cmdDi_cmdWord (count : BitVec 16) (di : Bool) (kind : BitVec 2) (op : BitVec 4) :
    cmdDi (cmdWord count di kind op) = di :=
  cmdWord_getLsbD count di kind op 6

theorem cmdCount_cmdWord (count : BitVec 16) (di : Bool) (kind : BitVec 2) (op : BitVec 4) :
    cmdCount (cmdWord count di kind op) = count := by
  refine BitVec.eq_of_getLsbD_eq fun i hi => ?_
  rw [cmdCount, BitVec.getLsbD_extractLsb', cmdWord_getLsbD, if_neg (by omega), if_neg (by omega),
    if_neg (by omega), if_neg (by omega), Nat.add_sub_cancel_left, decide_eq_true hi, Bool.true_and]

theorem regionKindOfBits_regionKindBits (kind : RegionKind) :
    regionKindOfBits (regionKindBits kind) = kind := by
  cases kind <;> rfl

theorem regionKindBits_regionKindOfBits (b : BitVec 2) :
    regionKindBits (regionKindOfBits b) = b := by
  decide +revert

/-- The check of the last row, bit 3 of its OP, is that the OP is 8 or more. -/
theorem getLsbD_three_iff (op : BitVec 4) : op.getLsbD 3 = true ↔ 8 ≤ op.toNat := by
  decide +revert

/-! ## Decoding what was encoded -/

/-- Settles O3: the word of a command has the OP of its row, which decodes to the row, with the fields
read back from where they were put. -/
theorem decodeEncodeRoundTrip : Obligations.DecodeEncodeRoundTrip := by
  intro i hwf
  cases i with
  | nop | enc | buildLut | buildAvi | reserved7 =>
    simp [encode, decodeWord, cmdOp_cmdWord]
  | buildRegion kind di =>
    simp [encode, decodeWord, cmdOp_cmdWord, cmdKind_cmdWord, cmdDi_cmdWord,
      regionKindOfBits_regionKindBits]
  | pack count | unpack count =>
    simp [encode, decodeWord, cmdOp_cmdWord, cmdCount_cmdWord]
  | reserved8F op =>
    have hop : cmdOp (encode (.reserved8F op)) = op := cmdOp_cmdWord _ _ _ _
    have hrow := decodeWord_eq_reserved8F_iff.2 (hop.symm ▸ (getLsbD_three_iff op).1 hwf)
    rwa [hop] at hrow

/-! ## Encoding what was decoded -/

/-- The word built from OP alone keeps the bits 3:0. -/
theorem cmdWord_of_op (w : Word) : cmdWord 0#16 false 0#2 (cmdOp w) = w &&& 0x0000000F#32 := by
  refine BitVec.eq_of_getLsbD_eq fun i hi => ?_
  rw [cmdWord_getLsbD, BitVec.getLsbD_and]
  interval_cases i <;> simp [cmdOp]

/-- The word built from OP, KIND and DI keeps the bits 6:0. -/
theorem cmdWord_of_op_kind_di (w : Word) :
    cmdWord 0#16 (cmdDi w) (cmdKind w) (cmdOp w) = w &&& 0x0000007F#32 := by
  refine BitVec.eq_of_getLsbD_eq fun i hi => ?_
  rw [cmdWord_getLsbD, BitVec.getLsbD_and]
  interval_cases i <;> simp [cmdOp, cmdKind, cmdDi]

/-- The word built from OP and COUNT keeps the bits 3:0 and 31:16. -/
theorem cmdWord_of_op_count (w : Word) :
    cmdWord (cmdCount w) false 0#2 (cmdOp w) = w &&& 0xFFFF000F#32 := by
  refine BitVec.eq_of_getLsbD_eq fun i hi => ?_
  rw [cmdWord_getLsbD, BitVec.getLsbD_and]
  interval_cases i <;> simp [cmdOp, cmdCount]

theorem decodeWord_wellFormed (w : Word) : (decodeWord w).wellFormed = true := by
  unfold decodeWord
  split
  case h_9 =>
    refine (getLsbD_three_iff _).2 ?_
    simp only [BitVec.toNat_eq, BitVec.toNat_ofNat, imp_false] at *
    omega
  all_goals rfl

/-- Settles O4: a row's own word is built from the fields the row uses, taken from the given word. -/
theorem encodeClearsIgnoredFields : Obligations.EncodeClearsIgnoredFields := by
  refine fun w => ⟨decodeWord_wellFormed w, ?_⟩
  unfold decodeWord
  split
  case h_5 hop =>
    rw [if_pos hop, encode, regionKindBits_regionKindOfBits, ← hop, cmdWord_of_op_kind_di]
  case h_6 hop | h_7 hop =>
    have hword := cmdWord_of_op_count w
    rw [hop] at hword
    simpa [encode, hop] using hword
  case h_9 =>
    simp only [imp_false] at *
    simp [encode, cmdWord_of_op, *]
  all_goals
    next hop =>
    have hword := cmdWord_of_op w
    rw [hop] at hword
    simpa [encode, hop] using hword

/-- Settles O1: each word is decoded by evaluation. -/
theorem opcodeWordsDecode : Obligations.OpcodeWordsDecode := by
  unfold Obligations.OpcodeWordsDecode
  decide

end Sys2Proof.Machine

/-! PROOFS. What a completion, a host access and a step can do, each said once as a relation; the
invariants and frames that follow are case analyses of it (45_command_control.md R271, R277). -/

namespace Sys2Proof.Machine

/-! ## Completions (R271) -/

/-- The commands that read a memory, and so can meet an unwritten element (60_exceptions.md R312). -/
inductive ReadsMemory : Instr → Prop
  | pack (n : BitVec 16) : ReadsMemory (.pack n)
  | unpack (n : BitVec 16) : ReadsMemory (.unpack n)
  | buildRegion (kind : RegionKind) : ReadsMemory (.buildRegion kind true)

/-- The streams a BUILD_REGION uses: those of its 40 source words with a data island, none without
(43_blanking_framer.md R229, R231). -/
inductive StreamSource (info : Memory 32) : Bool → Streams → Prop
  | plain : StreamSource info false noStreams
  | island (ws : List Word) (hws : memGetRange .infoMem info 0 40 = .ok ws) :
      StreamSource info true (streamsOf ws)

/-- What the completion of a command leaves: InvalidInput, the record of an unwritten source, or the
command's own effect. -/
inductive Completion (s : State) : Instr → State → Prop
  | invalid (i : Instr) (code : ErrCode) : Completion s i (invalidInput code s)
  | unwritten (i : Instr) (e : Element) (hreads : ReadsMemory i) :
      Completion s i (recordFault (.uninitRead e) s)
  | nop : Completion s .nop (finish s)
  | enc (sym : Symbol) (disp : BitVec 5) :
      Completion s .enc (finish { s with encSymbol := sym, encDispOut := disp })
  | buildLut : Completion s .buildLut (finish { s with
      lutMem := memPut s.lutMem 0 (lutWords s.params)
      status := statusLutBuilt s.status })
  | buildAvi : Completion s .buildAvi (finish { s with
      infoMem := memPut s.infoMem 0
        (infoWords s.params (sources s).regs.vic (sources s).regs.hsAct (sources s).regs.vsAct)
      status := statusAviBuilt s.status })
  | buildRegion (kind : RegionKind) (di : Bool) (st : Streams)
      (hchecks : regionError (sources s).regs (sources s).aviValid di = none)
      (hst : StreamSource (sources s).infoMem di st) :
      Completion s (.buildRegion kind di) (storeRegion st kind di s)
  | pack (n : BitVec 16) (syms : List Symbol) (hsyms : syms.length ≤ 1024) :
      Completion s (.pack n) (finish { s with packOut := memPut s.packOut 0 (packSymbols syms) })
  | unpack (n : BitVec 16) (syms : List Symbol) (hsyms : syms.length ≤ 1024) :
      Completion s (.unpack n) (finish { s with packIn := memPut s.packIn 0 syms })

theorem exec_completion {i : Instr} {s t : State} (h : exec i s = .next t) : Completion s i t := by
  cases i with
  | nop => cases h; exact .nop
  | enc =>
    obtain ⟨-, rfl⟩ | ⟨-, rfl⟩ := execEnc_cases h
    · exact .invalid _ _
    · exact .enc _ _
  | buildLut => cases h; exact .buildLut
  | buildAvi => cases h; exact .buildAvi
  | buildRegion kind di =>
    obtain ⟨code, -, rfl⟩ | ⟨e, -, rfl, -, rfl⟩ | ⟨ws, hchecks, rfl, hws, rfl⟩ | ⟨hchecks, rfl, rfl⟩ :=
      execBuildRegion_cases h
    · exact .invalid _ code
    · exact .unwritten _ e (.buildRegion kind)
    · exact .buildRegion _ _ _ hchecks (.island ws hws)
    · exact .buildRegion _ _ _ hchecks .plain
  | pack n =>
    obtain ⟨-, rfl⟩ | ⟨e, -, -, rfl⟩ | ⟨syms, hn, hread, rfl⟩ := execPack_cases h
    · exact .invalid _ _
    · exact .unwritten _ e (.pack n)
    · exact .pack n syms ((memGetRange_ok hread).1.trans_le hn)
  | unpack n =>
    obtain ⟨-, rfl⟩ | ⟨e, -, -, rfl⟩ | ⟨ws, hn, -, rfl⟩ := execUnpack_cases h
    · exact .invalid _ _
    · exact .unwritten _ e (.unpack n)
    · exact .unpack n _ ((unpackSymbols_length _ _).trans_le hn)
  | reserved7 | reserved8F => cases h; exact .invalid _ _

/-- The command ends, or one unwritten element is recorded and nothing else changes. -/
theorem Completion.ends {s t : State} {i : Instr} (h : Completion s i t) :
    (t.pending = none ∧ t.status.busy = false ∧ t.fault = s.fault) ∨
      ReadsMemory i ∧ ∃ e, t = recordFault (.uninitRead e) s := by
  cases h with
  | unwritten _ e hreads => exact .inr ⟨hreads, e, rfl⟩
  | _ => exact .inl ⟨rfl, rfl, rfl⟩

/-! ## Host accesses (20_memory.md R75, R76; 60_exceptions.md R305, R306, R312) -/

/-- What a host access leaves: a recorded fault, an answer, nothing new, or, while BUSY = 0, one write;
a write to a timing register keeps VIC and SYNC_CFG. -/
inductive HostMove (s : State) : State → Prop
  | same : HostMove s s
  | faulted (f : Fault) : HostMove s (recordFault f s)
  | answered (v : Word) : HostMove s (answer v s)
  | drawn (loc : Loc) : HostMove s (answerDrawn loc s)
  | issued (w : Word) (hidle : s.status.busy = false) : HostMove s (issueCommand w s)
  | encIn (v : BitVec 13) (hidle : s.status.busy = false) :
      HostMove s { s with regs := { s.regs with encIn := v } }
  | timing (r : HostRegs) (hidle : s.status.busy = false) (hvic : r.vic = s.regs.vic)
      (hhs : r.hsAct = s.regs.hsAct) (hvs : r.vsAct = s.regs.vsAct) : HostMove s (writeTiming r s)
  | packetReg (r : HostRegs) (hidle : s.status.busy = false) : HostMove s (writePacketReg r s)
  | packIn (i : Nat) (v : Symbol) (hidle : s.status.busy = false) (hi : i < 1024) :
      HostMove s { s with packIn := memPut s.packIn i [v] }
  | packOut (i : Nat) (v : Word) (hidle : s.status.busy = false) (hi : i < 320) :
      HostMove s { s with packOut := memPut s.packOut i [v] }

theorem hostRead_move (width : Width) (a : Addr) (s : State) :
    HostMove s (hostRead width a s) := by
  obtain ⟨-, hread⟩ | ⟨loc, -, hread⟩ := hostRead_cases width a s
  · exact hread ▸ .faulted _
  · obtain ⟨v, -, -, hloc⟩ | ⟨v, -, -, hloc⟩ | ⟨e, -, hloc⟩ := hostReadLoc_cases loc s
    · exact hread ▸ hloc ▸ .drawn loc
    · exact hread ▸ hloc ▸ .answered v
    · exact hread ▸ hloc ▸ .faulted _

/-- A guarded write is a move when the write is one in the idle state. -/
theorem guardBusy_move {s t : State} (reason : ContractReason)
    (hwrite : s.status.busy = false → HostMove s t) : HostMove s (guardBusy reason s t) := by
  obtain ⟨-, hguard⟩ | ⟨hidle, hguard⟩ := guardBusy_cases reason s t
  · exact hguard ▸ .faulted _
  · rw [hguard]
    exact hwrite hidle

theorem writeReg_move (r : Reg) (v : Word) (s : State) : HostMove s (writeReg r v s) := by
  cases r with
  | status | encOut => exact .same
  | cmd => exact guardBusy_move _ (.issued v)
  | encIn => exact guardBusy_move _ (.encIn _)
  | hActive | hFp | hPulse | hBp | hTotal =>
    exact guardBusy_move _ fun hidle => .timing _ hidle rfl rfl rfl
  | syncCfg | vic => exact guardBusy_move _ (.packetReg _)

/-- The map reaches the host's buffers only within their sizes (20_memory.md R72). -/
theorem locate_buffer_bounds {n : Nat} {loc : Loc} (h : locate n = some loc) :
    (∀ i, loc = .packIn i → i < 1024) ∧ (∀ i, loc = .packOut i → i < 320) := by
  unfold locate at h
  split_ifs at h
  case pos =>
    obtain ⟨r, -, rfl⟩ := Option.map_eq_some_iff.1 h
    exact ⟨nofun, nofun⟩
  all_goals
    cases h
    constructor <;> rintro i ⟨⟩
    all_goals omega

theorem hostWrite_move (width : Width) (a : Addr) (v : Word) (s : State) :
    HostMove s (hostWrite width a v s) := by
  obtain ⟨-, hwrite⟩ | ⟨loc, hloc, hwrite⟩ := hostWrite_cases width a v s
  · exact hwrite ▸ .faulted _
  · rw [hwrite]
    obtain ⟨-, -, hlocate⟩ := legalAccess_eq_some.1 hloc
    obtain ⟨hin, hout⟩ := locate_buffer_bounds hlocate
    cases loc with
    | reg r => exact writeReg_move r v s
    | terc4Rom | ctrlRom | gbRom | lutMem | infoMem | regionMem => exact .same
    | packIn i => exact guardBusy_move _ fun hidle => .packIn i _ hidle (hin i rfl)
    | packOut i => exact guardBusy_move _ fun hidle => .packOut i _ hidle (hout i rfl)

theorem hostAccess_move (op : HostOp) (s : State) : HostMove s (hostAccess op s) := by
  cases op with
  | read width a => exact hostRead_move width a s
  | write width a v => exact hostWrite_move width a v s

/-! ## Steps (R277) -/

/-- The moves of a step that is no reset, from the state whose inbox has lost its head. -/
inductive Move (s : State) : State → Prop
  | idle (hnone : s.pending = none) : Move s s
  | completed {t : State} (p : Pending) (hp : s.pending = some p)
      (hcomp : Completion s (decodeWord p.word) t) : Move s t
  | host {t : State} (hhost : HostMove s t) : Move s t

theorem coreTurn_move {s t : State} (h : coreTurn s = .next t) : Move s t := by
  obtain ⟨hnone, rfl⟩ | ⟨p, hp, hexec⟩ := coreTurn_cases h
  · exact .idle hnone
  · exact .completed p hp (exec_completion hexec)

/-- A step takes the head of the inbox, where there is one, and makes a move or resets. -/
theorem step_move {s t : State} (h : step s = .next t) :
    ∃ rest, (resetNext s = false ∧ Move { s with inbox := rest } t) ∨
      (resetNext s = true ∧ t = resetCore { s with inbox := rest }) := by
  obtain ⟨-, ⟨hinbox, hturn⟩ | ⟨rest, hinbox, hturn⟩ | ⟨op, rest, hinbox, rfl⟩ |
    ⟨rest, hinbox, rfl⟩⟩ := step_cases h
  · exact ⟨s.inbox, .inl ⟨by simp [resetNext, hinbox], coreTurn_move hturn⟩⟩
  · exact ⟨rest, .inl ⟨by simp [resetNext, hinbox], coreTurn_move hturn⟩⟩
  · exact ⟨rest, .inl ⟨by simp [resetNext, hinbox], .host (hostAccess_move op _)⟩⟩
  · exact ⟨rest, .inr ⟨by simp [resetNext, hinbox], rfl⟩⟩

/-- A step that is no reset makes a move. -/
theorem step_move_of_not_reset {s t : State} (h : step s = .next t) (hreset : resetNext s = false) :
    ∃ rest, Move { s with inbox := rest } t := by
  obtain ⟨rest, ⟨-, hmove⟩ | ⟨hreset', -⟩⟩ := step_move h
  · exact ⟨rest, hmove⟩
  · rw [hreset] at hreset'
    contradiction

/-- A predicate that does not read the inbox is kept by every step when every completion and every host
access keep it, and reset sets it up. -/
theorem step_keeps {P : State → Prop} (hinbox : ∀ s rest, P s → P { s with inbox := rest })
    (hcomp : ∀ s t i, P s → Completion s i t → P t)
    (hhost : ∀ s t, P s → HostMove s t → P t) (hreset : ∀ s, P (resetCore s))
    {s t : State} (hs : P s) (h : step s = .next t) : P t := by
  obtain ⟨rest, ⟨-, hmove⟩ | ⟨-, rfl⟩⟩ := step_move h
  · have hrest := hinbox s rest hs
    cases hmove with
    | idle => exact hrest
    | completed p hp hc => exact hcomp _ _ _ hrest hc
    | host hh => exact hhost _ _ hrest hh
  · exact hreset _

end Sys2Proof.Machine

/-! PROOFS. The invariant of the core, part by part, and that every step keeps it
(10_state.md section 3; 70_reset_and_hazards.md R347). -/

namespace Sys2Proof.Machine

/-! ## The form of the memories (10_state.md R42 to R46) -/

theorem memWf_resetCore (s : State) : (resetCore s).memWf :=
  ⟨wf_nil _, wf_nil _, wf_nil _, wf_nil _, wf_nil _⟩

/-- The packed words of at most 1024 symbols fit PACK_OUT. -/
theorem packSymbols_length_le {syms : List Symbol} (h : syms.length ≤ 1024) :
    (packSymbols syms).length ≤ 320 := by
  rw [packSymbols_length, groupsOf]
  omega

/-- A region whose checks pass fits its blocks of 256 words. -/
theorem groupsOf_of_regionError {r : HostRegs} {avi di : Bool} (h : regionError r avi di = none) :
    5 * groupsOf (regionLength r) ≤ 256 :=
  (groupsOf_timing (regionError_eq_none.1 h).1).trans (by decide)

/-- Each command writes one block, inside its memory. -/
theorem Completion.memWf {s t : State} {i : Instr} (h : Completion s i t) (hs : s.memWf) :
    t.memWf := by
  obtain ⟨hlut, hinfo, hregion, hin, hout⟩ := hs
  cases h with
  | invalid | unwritten | nop | enc => exact ⟨hlut, hinfo, hregion, hin, hout⟩
  | buildLut => exact ⟨memPut_wf hlut _ _ (by simp), hinfo, hregion, hin, hout⟩
  | buildAvi => exact ⟨hlut, memPut_wf hinfo _ _ (by simp), hregion, hin, hout⟩
  | buildRegion kind di st hchecks =>
    exact ⟨hlut, hinfo, putRegion_wf hregion (groupsOf_of_regionError hchecks), hin, hout⟩
  | pack n syms hsyms =>
    have hlen := packSymbols_length_le hsyms
    exact ⟨hlut, hinfo, hregion, hin, memPut_wf hout _ _ (by omega)⟩
  | unpack n syms hsyms =>
    exact ⟨hlut, hinfo, hregion, memPut_wf hin _ _ (by omega), hout⟩

theorem HostMove.memWf {s t : State} (h : HostMove s t) (hs : s.memWf) : t.memWf := by
  obtain ⟨hlut, hinfo, hregion, hin, hout⟩ := hs
  cases h with
  | packIn i v _ hi => exact ⟨hlut, hinfo, hregion, memPut_wf hin _ _ hi, hout⟩
  | packOut i v _ hi => exact ⟨hlut, hinfo, hregion, hin, memPut_wf hout _ _ hi⟩
  | _ => exact ⟨hlut, hinfo, hregion, hin, hout⟩

/-- Settles O57: commands and the host write their blocks inside the memories, which keeps the canonical
form, and reset empties them. -/
theorem stepKeepsMemoriesWf : Obligations.StepKeepsMemoriesWf := fun _ _ hs h =>
  step_keeps (P := State.memWf) (fun _ _ hs => hs) (fun _ _ _ hs hc => hc.memWf hs)
    (fun _ _ hs hh => hh.memWf hs) memWf_resetCore hs h

/-! ## STATUS and the pending command (10_state.md R34, R48) -/

theorem statusWf_invalidInput (code : ErrCode) (s : State) : (invalidInput code s).statusWf :=
  ⟨rfl, by cases code <;> rfl, (errCodeBits_bounds code).2, nofun⟩

/-- Completion without an error keeps STATUS, except for the validity bits. -/
theorem statusWf_of_done {s t : State} (hs : s.statusWf) (hpending : t.pending = none)
    (hbusy : t.status.busy = false) (herr : t.status.err = s.status.err)
    (hcode : t.status.errCode = s.status.errCode) : t.statusWf := by
  obtain ⟨-, herrCode, hle, -⟩ := hs
  simp [State.statusWf, hpending, hbusy, herr, hcode, herrCode, hle]

theorem Completion.statusWf {s t : State} {i : Instr} (h : Completion s i t) (hs : s.statusWf) :
    t.statusWf := by
  cases h with
  | invalid _ code => exact statusWf_invalidInput code s
  | unwritten => exact hs
  | _ => exact statusWf_of_done hs rfl rfl rfl rfl

theorem HostMove.statusWf {s t : State} (h : HostMove s t) (hs : s.statusWf) : t.statusWf := by
  cases h with
  | issued w hidle => exact ⟨rfl, rfl, Nat.zero_le _, fun _ => rfl⟩
  | _ => exact hs

/-! ## The snapshot of the pending command (10_state.md R40) -/

theorem Completion.snapshotCurrent {s t : State} {i : Instr} (h : Completion s i t)
    (hs : s.snapshotCurrent) : t.snapshotCurrent := by
  obtain ⟨hnone, -⟩ | ⟨-, e, rfl⟩ := h.ends
  · intro p hp
    rw [hnone] at hp
    contradiction
  · exact hs

/-- With BUSY = 0 no command is pending, so that no snapshot can grow stale. -/
theorem snapshotCurrent_of_idle {s t : State} (hs : s.statusWf) (hidle : s.status.busy = false)
    (hpending : t.pending = s.pending) : t.snapshotCurrent := by
  intro p hp
  obtain ⟨hbusy, -⟩ := hs
  rw [hidle, ← hpending, hp] at hbusy
  contradiction

theorem HostMove.snapshotCurrent {s t : State} (h : HostMove s t) (hstatus : s.statusWf)
    (hs : s.snapshotCurrent) : t.snapshotCurrent := by
  cases h with
  | same | faulted | answered | drawn => exact hs
  | issued w =>
    rintro p ⟨⟩
    rfl
  | encIn _ hidle | timing _ hidle | packetReg _ hidle | packIn _ _ hidle | packOut _ _ hidle =>
    exact snapshotCurrent_of_idle hstatus hidle rfl

/-- The sources of the pending command are the present ones. -/
theorem sources_of_snapshotCurrent {s : State} (hs : s.snapshotCurrent) :
    sources s = takeSnapshot s := by
  unfold sources
  split
  case h_1 => rfl
  case h_2 p hp => exact hs p hp

/-! ## LUT_MEM and INFO_MEM (41_lut_builder.md R187; 44_infoframe_builder.md R258) -/

theorem Completion.lutCurrent {s t : State} {i : Instr} (h : Completion s i t) (hwf : s.memWf)
    (hs : s.lutCurrent) : t.lutCurrent := by
  cases h with
  | buildLut =>
    obtain ⟨hlut, -⟩ := hwf
    exact fun _ => memPut_whole hlut _ (lutWords_length _)
  | _ => exact hs

theorem HostMove.lutCurrent {s t : State} (h : HostMove s t) (hs : s.lutCurrent) :
    t.lutCurrent := by
  cases h <;> exact hs

theorem Completion.aviCurrent {s t : State} {i : Instr} (h : Completion s i t) (hwf : s.memWf)
    (hsnap : s.snapshotCurrent) (hs : s.aviCurrent) : t.aviCurrent := by
  cases h with
  | buildAvi =>
    obtain ⟨-, hinfo, -⟩ := hwf
    rw [sources_of_snapshotCurrent hsnap]
    exact fun _ => memPut_whole hinfo _ (infoWords_length _ _ _ _)
  | _ => exact hs

theorem HostMove.aviCurrent {s t : State} (h : HostMove s t) (hs : s.aviCurrent) :
    t.aviCurrent := by
  cases h with
  | timing r _ hvic hhs hvs =>
    unfold State.aviCurrent
    rw [writeTiming_regs, hvic, hhs, hvs]
    exact hs
  | packetReg => exact nofun
  | _ => exact hs

/-! ## The streams of INFO_MEM (43_blanking_framer.md R229) -/

/-- A stream of 32 symbols comes back from the ten words it was packed to. -/
theorem streamOf_of_packed {ws : List Word} {t : Nat} {syms : List Symbol} (hlen : syms.length = 32)
    (hws : (ws.drop (10 * t)).take 10 = packSymbols syms) : streamOf ws t = syms := by
  rw [streamOf, hws, ← hlen, unpackSymbols_packSymbols]

/-- The words of BUILD_AVI hold the streams of the registers it was built with. -/
theorem streamsOf_infoWords (p : Params) (r : HostRegs) :
    streamsOf (infoWords p r.vic r.hsAct r.vsAct) = aviStreams p r := by
  rw [streamsOf, aviStreams, Streams.mk.injEq]
  refine ⟨?_, ?_, ?_, ?_⟩ <;> refine streamOf_of_packed (by simp) ?_ <;>
    simp [infoWords, groupsOf, List.drop_append, List.drop_eq_nil_of_le, List.take_of_length_le]

/-- A block read of a whole memory answers its cells. -/
theorem memGetRange_cellsFrom {w : Nat} (element : Nat → Element) (vs : List (BitVec w)) :
    memGetRange element (cellsFrom 0 vs) 0 vs.length = .ok vs :=
  memGetRange_of_holds element rfl fun i _ => by simp [memGet_cellsFrom]

/-- While AVI_VALID = 1 a region takes the streams of the current VIC and SYNC_CFG. -/
theorem StreamSource.eq_regionStreams {s : State} {di : Bool} {st : Streams}
    (h : StreamSource s.infoMem di st) (havi : di = true → s.status.aviValid = true)
    (hcur : s.aviCurrent) : st = regionStreams s.params s.regs di := by
  cases h with
  | plain => rfl
  | island ws hws =>
    have hread := memGetRange_cellsFrom .infoMem
      (infoWords s.params s.regs.vic s.regs.hsAct s.regs.vsAct)
    rw [infoWords_length, ← hcur (havi rfl), hws] at hread
    cases hread
    exact streamsOf_infoWords _ _

/-! ## REGION_MEM (70_reset_and_hazards.md R347) -/

theorem kindIndex_lt (kind : RegionKind) : kindIndex kind < 4 := by
  cases kind <;> decide

theorem kindIndex_inj {k k' : RegionKind} : kindIndex k = kindIndex k' ↔ k = k' := by
  cases k <;> cases k' <;> decide

theorem channelIndex_lt (c : Channel) : channelIndex c < 3 := by
  cases c <;> decide

/-- The blocks of two kinds do not meet (20_memory.md R72). -/
theorem regionBase_disjoint {k k' : RegionKind} (hk : k' ≠ k) (c c' : Channel) {w : Nat}
    (hw : w < 256) :
    regionBase (kindIndex k') (channelIndex c') + w < regionBase (kindIndex k) (channelIndex c) ∨
      regionBase (kindIndex k) (channelIndex c) + 256 ≤
        regionBase (kindIndex k') (channelIndex c') + w := by
  have hne := kindIndex_inj.not.2 hk
  have hc := channelIndex_lt c
  have hc' := channelIndex_lt c'
  unfold regionBase
  omega

/-- A region leaves the blocks of the other kinds alone. -/
theorem memGet_putRegion_of_ne {k k' : RegionKind} (hk : k' ≠ k) (p : Params) {r : HostRegs}
    (hfit : 5 * groupsOf (regionLength r) ≤ 256) (st : Streams) (di : Bool) (m : Memory 32)
    (c : Channel) {w : Nat} (hw : w < 256) :
    memGet (putRegion p r st k di m) (regionBase (kindIndex k') (channelIndex c) + w) =
      memGet m (regionBase (kindIndex k') (channelIndex c) + w) :=
  memGet_putRegion_outside _ fun c' => by
    have := regionBase_disjoint hk c' c hw
    omega

theorem Completion.regionsCurrent {s t : State} {i : Instr} (h : Completion s i t)
    (hsnap : s.snapshotCurrent) (havi : s.aviCurrent) (hs : s.regionsCurrent) :
    t.regionsCurrent := by
  cases h with
  | buildRegion kind di st hchecks hst =>
    simp only [sources_of_snapshotCurrent hsnap, takeSnapshot_regs, takeSnapshot_aviValid,
      takeSnapshot_infoMem] at hchecks hst
    obtain ⟨htiming, hisland⟩ := regionError_eq_none.1 hchecks
    have hfit := groupsOf_of_regionError hchecks
    have hstreams := hst.eq_regionStreams (fun hdi => (hisland hdi).2.2) havi
    intro k
    rw [storeRegion, sources_of_snapshotCurrent hsnap]
    simp only [finish_status, finish_regs, finish_params, finish_regionMem, statusDone_regionValid,
      statusDone_regionDi, statusRegionBuilt_regionValid, statusRegionBuilt_regionDi,
      takeSnapshot_regs, regionBit_putRegionBit _ (kindIndex_lt k), kindIndex_inj]
    by_cases hk : k = kind
    · subst hk
      simp only [if_true, forall_const]
      refine ⟨regionError_eq_none.2 ⟨htiming, fun hdi => ?_⟩, fun c w word hword => ?_⟩
      · obtain ⟨hgroups, hpulse, -⟩ := hisland hdi
        exact ⟨hgroups, hpulse, rfl⟩
      · obtain ⟨hw, -⟩ := List.getElem?_eq_some_iff.1 hword
        rw [regionWords_length] at hw
        rw [memGet_putRegion hfit c w hw, hstreams, hword]
    · simp only [if_neg hk]
      intro hvalid
      obtain ⟨hchecks', hwords⟩ := hs k hvalid
      refine ⟨hchecks', fun c w word hword => ?_⟩
      obtain ⟨hw, -⟩ := List.getElem?_eq_some_iff.1 hword
      rw [regionWords_length] at hw
      rw [memGet_putRegion_of_ne hk _ hfit _ _ _ _ (hw.trans_le hfit)]
      exact hwords c w word hword
  | _ => exact hs

theorem regionsCurrent_of_none_valid {s : State} (h : s.status.regionValid = 0) :
    s.regionsCurrent := by
  intro kind hvalid
  simp [h, regionBit] at hvalid

/-- A write to a timing register, VIC or SYNC_CFG clears the promises, and ENC_IN plays no part in a
region. -/
theorem HostMove.regionsCurrent {s t : State} (h : HostMove s t) (hs : s.regionsCurrent) :
    t.regionsCurrent := by
  cases h with
  | timing | packetReg => exact regionsCurrent_of_none_valid rfl
  | _ => exact hs

/-! ## The whole invariant -/

theorem inv_resetCore (s : State) : (resetCore s).Inv :=
  ⟨memWf_resetCore s, ⟨rfl, rfl, Nat.zero_le _, nofun⟩, nofun, nofun, nofun,
    regionsCurrent_of_none_valid rfl⟩

theorem Completion.inv {s t : State} {i : Instr} (h : Completion s i t) (hs : s.Inv) : t.Inv := by
  obtain ⟨hwf, hstatus, hsnap, hlut, havi, hregions⟩ := hs
  exact ⟨h.memWf hwf, h.statusWf hstatus, h.snapshotCurrent hsnap, h.lutCurrent hwf hlut,
    h.aviCurrent hwf hsnap havi, h.regionsCurrent hsnap havi hregions⟩

theorem HostMove.inv {s t : State} (h : HostMove s t) (hs : s.Inv) : t.Inv := by
  obtain ⟨hwf, hstatus, hsnap, hlut, havi, hregions⟩ := hs
  exact ⟨h.memWf hwf, h.statusWf hstatus, h.snapshotCurrent hstatus hsnap, h.lutCurrent hlut,
    h.aviCurrent havi, h.regionsCurrent hregions⟩

/-- Settles O58: every part is kept by completions and host accesses, of which only issue and a
completion touch the pending command, and a build command sets its bit with what it stores. -/
theorem stepKeepsInvariant : Obligations.StepKeepsInvariant := fun _ _ hs h =>
  step_keeps (P := State.Inv) (fun _ _ hs => hs) (fun _ _ _ hs hc => hc.inv hs)
    (fun _ _ hs hh => hh.inv hs) inv_resetCore hs h

/-- Settles O56: power-up leaves what the reset input leaves, from any state with its parameters. -/
theorem resetHasInvariant : Obligations.ResetHasInvariant := inv_resetCore State.reset

end Sys2Proof.Machine

/-! PROOFS. What the commands and the steps keep: frames, the error record, written elements, the end of
every command (45_command_control.md; 60_exceptions.md). -/

namespace Sys2Proof.Machine

/-! ## Steps by the head of the inbox (45_command_control.md R277) -/

theorem step_of_fault {s : State} {f : Fault} (hfault : s.fault = some f) : step s = .fault f := by
  simp [step, runStep, hfault]

theorem step_of_no_fault {s : State} (hfault : s.fault = none) : step s = takeMove s := by
  simp [step, runStep, hfault]

theorem coreTurn_of_pending {s : State} {p : Pending} (hp : s.pending = some p) :
    coreTurn s = exec (decodeWord p.word) s := by
  simp [coreTurn, fetchCommand, hp]

theorem coreTurn_of_not_pending {s : State} (hnone : s.pending = none) : coreTurn s = .next s := by
  simp [coreTurn, fetchCommand, hnone]

/-- An empty inbox and a core's turn at its head both give the core the move. -/
theorem step_of_core {s : State} (hfault : s.fault = none)
    (hturn : s.inbox = [] ∨ ∃ rest, s.inbox = Event.core :: rest) :
    step s = coreTurn { s with inbox := s.inbox.tail } := by
  rw [step_of_no_fault hfault, takeMove]
  obtain hinbox | ⟨rest, hinbox⟩ := hturn
  case inl =>
    have hs : { s with inbox := s.inbox.tail } = s := by rw [hinbox, List.tail_nil, ← hinbox]
    rw [hinbox] at hs ⊢
    rw [hs]
  case inr => simp [hinbox]

theorem step_of_host {s : State} {op : HostOp} {rest : List Event} (hfault : s.fault = none)
    (hinbox : s.inbox = .host op :: rest) :
    step s = .next (hostAccess op { s with inbox := rest }) := by
  rw [step_of_no_fault hfault, takeMove, hinbox]

theorem step_of_reset {s : State} {rest : List Event} (hfault : s.fault = none)
    (hinbox : s.inbox = .reset :: rest) : step s = .next (resetCore { s with inbox := rest }) := by
  rw [step_of_no_fault hfault, takeMove, hinbox]

/-- Settles O6: the core's turn runs the decoded word, and a placed word is pending with the core's turn
at the head of the inbox. -/
theorem stepRunsPendingCommand : Obligations.StepRunsPendingCommand := by
  refine ⟨fun s p hfault hp hturn => ?_, fun s w => ?_⟩
  · rw [step_of_core hfault hturn]
    exact coreTurn_of_pending hp
  · have hw : BitVec.ofNat 32 (w.toNat % 2 ^ 32) = w := by
      rw [Nat.mod_eq_of_lt w.isLt, BitVec.ofNat_toNat, BitVec.setWidth_eq]
    rw [State.withFetchWord, hw, step_of_core rfl (.inr ⟨s.inbox, rfl⟩)]
    rfl

/-- Settles O7: the head of the inbox chooses the move, and a core's turn with nothing pending is idle. -/
theorem stepFollowsInbox : Obligations.StepFollowsInbox := by
  refine fun s => ⟨fun f => step_of_fault, fun hfault => ⟨fun op rest => step_of_host hfault,
    fun rest => step_of_reset hfault, fun hnone hinbox => ?empty, fun rest hnone hinbox => ?core⟩⟩
  case empty =>
    rw [step_of_no_fault hfault, takeMove, hinbox]
    exact coreTurn_of_not_pending hnone
  case core =>
    rw [step_of_no_fault hfault, takeMove, hinbox]
    exact coreTurn_of_not_pending hnone

/-! ## Issue and InvalidInput (45_command_control.md R270, R271) -/

/-- Settles O39: the guarded write to CMD is the issue. -/
theorem issueTakesSnapshot : Obligations.IssueTakesSnapshot := by
  intro s w hidle
  have hwrite : hostWrite .word 0x0000#16 w s = issueCommand w s :=
    hostWrite_of_idle (loc := .reg .cmd) rfl rfl hidle
  rw [hwrite]
  exact ⟨rfl, rfl⟩

/-- Settles O40: `invalidInput` writes the code's number. -/
theorem invalidInputRecordsCode : Obligations.InvalidInputRecordsCode := by
  rintro s code bits rfl
  cases code <;> rfl

/-! ## Frames and ends (45_command_control.md R271, R276; 60_exceptions.md R312) -/

/-- Settles O45: the end of every completion. -/
theorem commandEnds : Obligations.CommandEnds := by
  intro i s
  obtain ⟨t, hexec⟩ := exec_next i s
  refine ⟨t, hexec, (exec_completion hexec).ends.imp_right fun ⟨hreads, e, ht⟩ => ⟨?_, e, ht⟩⟩
  cases hreads with
  | pack n => exact .inl ⟨n, rfl⟩
  | unpack n => exact .inr (.inl ⟨n, rfl⟩)
  | buildRegion kind => exact .inr (.inr ⟨kind, rfl⟩)

/-- BUILD_REGION leaves the bits and the blocks of the other kinds alone. -/
theorem Completion.other_region {s t : State} {k k' : RegionKind} {di : Bool}
    (h : Completion s (.buildRegion k di) t) (hk : k' ≠ k) :
    regionBit t.status.regionValid (kindIndex k') = regionBit s.status.regionValid (kindIndex k') ∧
    regionBit t.status.regionDi (kindIndex k') = regionBit s.status.regionDi (kindIndex k') ∧
    ∀ (c : Channel) (w : Nat), w < 256 →
      memGet t.regionMem (regionBase (kindIndex k') (channelIndex c) + w) =
        memGet s.regionMem (regionBase (kindIndex k') (channelIndex c) + w) := by
  cases h with
  | invalid | unwritten => exact ⟨rfl, rfl, fun _ _ _ => rfl⟩
  | buildRegion _ _ st hchecks =>
    have hfit := groupsOf_of_regionError hchecks
    have hne := kindIndex_inj.not.2 hk
    exact ⟨(regionBit_putRegionBit _ (kindIndex_lt k') true).trans (if_neg hne),
      (regionBit_putRegionBit _ (kindIndex_lt k') di).trans (if_neg hne),
      fun c w hw => memGet_putRegion_of_ne hk _ hfit st di _ c hw⟩

/-- Settles O44: each command's own effect is one destination and its validity bits. -/
theorem commandFrames : Obligations.CommandFrames := by
  intro i s t hexec
  have h := exec_completion hexec
  refine ⟨?regs, ?params, ?inbox, ?reply, ?draws, ?enc, ?lut, ?avi, ?noRegion, ?otherRegion, ?packOut,
    ?packIn⟩
  case otherRegion =>
    rintro k d rfl k' hk
    exact h.other_region hk
  all_goals cases h <;> simp [storeRegion]

/-! ## The error record (60_exceptions.md R303) -/

/-- A completion that leaves the command pending changes nothing of STATUS. -/
theorem Completion.status_of_pending {s t : State} {i : Instr} (h : Completion s i t)
    (hpending : t.pending.isSome = true) : t.status = s.status := by
  obtain ⟨hnone, -⟩ | ⟨-, e, rfl⟩ := h.ends
  · rw [hnone] at hpending
    contradiction
  · rfl

/-- No completion clears LUT_VALID. -/
theorem Completion.lutValid {s t : State} {i : Instr} (h : Completion s i t)
    (hlut : s.status.lutValid = true) : t.status.lutValid = true := by
  cases h with
  | buildLut => rfl
  | _ => exact hlut

/-- Settles O43: the moves that touch the record are issue, which makes a command pending, and
completion, which leaves none; only reset clears LUT_VALID. -/
theorem errorRecordKept : Obligations.ErrorRecordKept := by
  intro s t hstep hreset
  obtain ⟨rest, hmove⟩ := step_move_of_not_reset hstep hreset
  cases hmove with
  | idle => exact ⟨id, fun _ _ => ⟨rfl, rfl, rfl, rfl⟩⟩
  | completed p hp hcomp =>
    refine ⟨hcomp.lutValid, fun hpending _ => ?_⟩
    have hsome : t.pending.isSome = true := by
      rw [hpending, Option.isSome_iff_exists]
      exact ⟨p, hp⟩
    rw [hcomp.status_of_pending hsome]
    exact ⟨rfl, rfl, rfl, rfl⟩
  | host hhost =>
    cases hhost with
    | issued w hidle =>
      refine ⟨id, fun hpending hbusy => ?_⟩
      rw [← hpending, show s.status.busy = false from hidle] at hbusy
      contradiction
    | _ => exact ⟨id, fun _ _ => ⟨rfl, rfl, rfl, rfl⟩⟩

/-! ## Written elements (70_reset_and_hazards.md R341) -/

/-- Every element written in one memory is written in the other. -/
def StaysWritten {w : Nat} (m m' : Memory w) : Prop := ∀ i, memGet m i ≠ none → memGet m' i ≠ none

theorem StaysWritten.refl {w : Nat} (m : Memory w) : StaysWritten m m := fun _ => id

theorem StaysWritten.trans {w : Nat} {m₁ m₂ m₃ : Memory w} (h₁ : StaysWritten m₁ m₂)
    (h₂ : StaysWritten m₂ m₃) : StaysWritten m₁ m₃ := fun i hi => h₂ i (h₁ i hi)

theorem staysWritten_memPut {w : Nat} {m : Memory w} {base : Nat} {vs : List (BitVec w)} :
    StaysWritten m (memPut m base vs) := by
  intro i hi
  rw [memGet_memPut]
  split
  case isTrue hblock => simp; omega
  case isFalse => exact hi

theorem staysWritten_putRegion {p : Params} {r : HostRegs} {st : Streams} {kind : RegionKind}
    {di : Bool} {m : Memory 32} : StaysWritten m (putRegion p r st kind di m) :=
  (staysWritten_memPut.trans staysWritten_memPut).trans staysWritten_memPut

/-- All five memories keep what is written in them. -/
def State.KeepsWritten (s t : State) : Prop :=
  StaysWritten s.lutMem t.lutMem ∧ StaysWritten s.infoMem t.infoMem ∧
    StaysWritten s.regionMem t.regionMem ∧ StaysWritten s.packIn t.packIn ∧
    StaysWritten s.packOut t.packOut

theorem Completion.keepsWritten {s t : State} {i : Instr} (h : Completion s i t) :
    s.KeepsWritten t := by
  cases h with
  | invalid | unwritten | nop | enc => exact ⟨.refl _, .refl _, .refl _, .refl _, .refl _⟩
  | buildLut => exact ⟨staysWritten_memPut, .refl _, .refl _, .refl _, .refl _⟩
  | buildAvi => exact ⟨.refl _, staysWritten_memPut, .refl _, .refl _, .refl _⟩
  | buildRegion => exact ⟨.refl _, .refl _, staysWritten_putRegion, .refl _, .refl _⟩
  | pack => exact ⟨.refl _, .refl _, .refl _, .refl _, staysWritten_memPut⟩
  | unpack => exact ⟨.refl _, .refl _, .refl _, staysWritten_memPut, .refl _⟩

theorem HostMove.keepsWritten {s t : State} (h : HostMove s t) : s.KeepsWritten t := by
  cases h with
  | packIn => exact ⟨.refl _, .refl _, .refl _, staysWritten_memPut, .refl _⟩
  | packOut => exact ⟨.refl _, .refl _, .refl _, .refl _, staysWritten_memPut⟩
  | _ => exact ⟨.refl _, .refl _, .refl _, .refl _, .refl _⟩

theorem Move.keepsWritten {s t : State} (h : Move s t) : s.KeepsWritten t := by
  cases h with
  | idle => exact ⟨.refl _, .refl _, .refl _, .refl _, .refl _⟩
  | completed p _ hcomp => exact hcomp.keepsWritten
  | host hhost => exact hhost.keepsWritten

/-- Settles O10: every move but reset writes blocks, and a block write leaves no element unwritten. -/
theorem writtenElementsStayWritten : Obligations.WrittenElementsStayWritten := by
  intro s t hstep hreset i
  obtain ⟨rest, hmove⟩ := step_move_of_not_reset hstep hreset
  obtain ⟨hlut, hinfo, hregion, hin, hout⟩ := hmove.keepsWritten
  exact ⟨hlut i, hinfo i, hregion i, hin i, hout i⟩

/-! ## Unwritten sources (60_exceptions.md R312) -/

/-- A block read of the first n elements names the first unwritten one. -/
theorem memGetRange_first_unwritten {w n i : Nat} (element : Nat → Element) {m : Memory w} (hi : i < n)
    (hnone : memGet m i = none) (hwritten : ∀ j < i, memGet m j ≠ none) :
    memGetRange element m 0 n = .error (element i) := by
  have h := memGetRange_error (element := element) (m := m) (base := 0) hi
    (by simpa using hwritten) (by simpa using hnone)
  rwa [Nat.zero_add] at h

/-- Settles O42: past its checks a reading command makes one block read from element 0. -/
theorem unwrittenSourcesFault : Obligations.UnwrittenSourcesFault := by
  refine fun s n kind i => ⟨fun hn hi hnone hwritten => ?pack, fun hn hi hnone hwritten => ?unpack,
    fun hchecks hi hnone hwritten => ?region⟩
  case pack =>
    rw [exec, execPack, if_neg (by omega), memGetRange_first_unwritten .packIn hi hnone hwritten]
    rfl
  case unpack =>
    rw [exec, execUnpack, if_neg (by omega), groupsOf,
      memGetRange_first_unwritten .packOut hi hnone hwritten]
    rfl
  case region =>
    rw [exec, execBuildRegion, hchecks, memGetRange_first_unwritten .infoMem hi hnone hwritten]
    rfl

/-! ## The snapshot against the live registers (10_state.md R40) -/

/-- With a command pending the sources are its snapshot, whatever the live registers hold. -/
theorem sources_of_regs {s : State} {p : Pending} (hp : s.pending = some p) (r : HostRegs) :
    sources { s with regs := r } = sources s := by
  simp [sources, hp]

/-- An outcome with other register values in its next state. -/
def withRegs (r : HostRegs) : Host.Outcome State Fault Refusal → Host.Outcome State Fault Refusal
  | .next t => .next { t with regs := r }
  | .fault f => .fault f
  | .refused q => .refused q

/-- A command reads registers from its sources alone, and writes none. -/
theorem exec_of_regs {s : State} {p : Pending} (hp : s.pending = some p) (r : HostRegs) (i : Instr) :
    exec i { s with regs := r } = withRegs r (exec i s) := by
  have hsources := sources_of_regs hp r
  cases i with
  | nop | buildLut | reserved7 | reserved8F => rfl
  | buildAvi => simp only [exec, execBuildAvi, hsources]; rfl
  | enc => simp only [exec, execEnc, hsources]; split <;> rfl
  | buildRegion kind di =>
    simp only [exec, execBuildRegion, storeRegion, hsources]
    split
    · rfl
    · split
      · split <;> rfl
      · rfl
  | pack n =>
    simp only [exec, execPack, hsources]
    split
    · rfl
    · split <;> rfl
  | unpack n =>
    simp only [exec, execUnpack, hsources]
    split
    · rfl
    · split <;> rfl

/-- Settles O46: the outcome with other registers is the outcome, with those registers. -/
theorem commandIgnoresLiveRegisters : Obligations.CommandIgnoresLiveRegisters := by
  intro i s t p r hp h
  rw [exec_of_regs hp, h, withRegs]

/-! ## A pending command completes (45_command_control.md R271) -/

theorem HostMove.inbox {s t : State} (h : HostMove s t) : t.inbox = s.inbox := by
  cases h <;> rfl

/-- A host access abandons no command. -/
theorem HostMove.pending {s t : State} (h : HostMove s t) (hs : s.pending.isSome = true) :
    t.pending.isSome = true := by
  cases h with
  | issued => rfl
  | _ => exact hs

/-- Nothing is pending, or a fault stops the run. -/
def State.Settled (s : State) : Prop := s.pending = none ∨ s.fault.isSome = true

/-- At most n steps reach a settled state. -/
def State.SettlesWithin (n : Nat) (s : State) : Prop :=
  ∃ (k : Nat) (t : State), k ≤ n ∧ Host.Core.run Sys2Proof.core k s = .next t ∧ t.Settled

theorem State.Settled.settlesWithin {s : State} (h : s.Settled) (n : Nat) : s.SettlesWithin n :=
  ⟨0, s, Nat.zero_le n, rfl, h⟩

theorem run_succ_of_step {s u : State} (h : step s = .next u) (k : Nat) :
    Host.Core.run Sys2Proof.core (k + 1) s = Host.Core.run Sys2Proof.core k u := by
  have hcore : Sys2Proof.core.step s = .next u := h
  simp only [Host.Core.run, hcore]

/-- One step more, which a state with a fault recorded does not need. -/
theorem settlesWithin_succ {s : State} {n : Nat}
    (h : s.fault = none → ∃ t, step s = .next t ∧ t.SettlesWithin n) : s.SettlesWithin (n + 1) := by
  cases hfault : s.fault with
  | some f => exact State.Settled.settlesWithin (.inr (by rw [hfault]; rfl)) _
  | none =>
    obtain ⟨u, hstep, k, t, hk, hrun, ht⟩ := h hfault
    exact ⟨k + 1, t, Nat.succ_le_succ hk, (run_succ_of_step hstep k).trans hrun, ht⟩

/-- The core's turn settles a pending command. -/
theorem settlesWithin_of_core_turn {s : State} (hpending : s.pending.isSome = true)
    (hturn : s.inbox = [] ∨ ∃ rest, s.inbox = Event.core :: rest) (n : Nat) :
    s.SettlesWithin (n + 1) := by
  obtain ⟨p, hp⟩ := Option.isSome_iff_exists.1 hpending
  obtain ⟨t, hexec⟩ := exec_next (decodeWord p.word) { s with inbox := s.inbox.tail }
  refine settlesWithin_succ fun hfault => ⟨t, ?step, State.Settled.settlesWithin ?settled n⟩
  case step => rw [stepRunsPendingCommand.1 s p hfault hp hturn, hexec]
  case settled =>
    obtain ⟨hnone, -⟩ | ⟨-, e, rfl⟩ := (exec_completion hexec).ends
    · exact .inl hnone
    · exact .inr rfl

/-- By induction on the waiting inputs: a host access leaves the command pending and one input less,
and every other input, or their end, settles it. -/
theorem pending_settlesWithin (inputs : List Event) {s : State} (hinbox : s.inbox = inputs)
    (hpending : s.pending.isSome = true) : s.SettlesWithin (inputs.length + 1) := by
  induction inputs generalizing s with
  | nil => exact settlesWithin_of_core_turn hpending (.inl hinbox) _
  | cons e rest ih =>
    cases e with
    | core => exact settlesWithin_of_core_turn hpending (.inr ⟨rest, hinbox⟩) _
    | reset =>
      exact settlesWithin_succ fun hfault =>
        ⟨_, step_of_reset hfault hinbox, State.Settled.settlesWithin (.inl rfl) _⟩
    | host op =>
      have hmove := hostAccess_move op { s with inbox := rest }
      exact settlesWithin_succ fun hfault =>
        ⟨_, step_of_host hfault hinbox, ih hmove.inbox (hmove.pending hpending)⟩

/-- Settles O60: the waiting inputs are used up one by one, and then it is the core's turn. -/
theorem pendingCommandCompletes : Obligations.PendingCommandCompletes := fun _ _ hp =>
  pending_settlesWithin _ rfl (Option.isSome_iff_exists.2 ⟨_, hp⟩)

end Sys2Proof.Machine

/-! PROOFS. What the commands compute: symbols and their decoding, chained LUT entries, the packer's
buffers, the packet checksum, regions in either order (40_symbol_encoder.md to
44_infoframe_builder.md). -/

namespace Sys2Proof.Machine

/-! ## The receiver's decoding of a symbol (40_symbol_encoder.md R152, R162) -/

/-- The byte a symbol stands for: the code word, with bit 9 undone, whose serial chain is undone by
adding each bit to its neighbour, and XNOR by inverting all bits but the seed. -/
def tmdsDecode (sym : Symbol) : Byte :=
  let q : Byte := if sym.getLsbD 9 then ~~~(sym.extractLsb' 0 8) else sym.extractLsb' 0 8
  q ^^^ (q <<< 1) ^^^ (if sym.getLsbD 8 then 0x00#8 else 0xFE#8)

/-- XNOR inverts every bit after the seed. -/
theorem chainMask_getLsbD_succ (marker : Bool) {i : Nat} (hi : i < 7) :
    (if marker then 0x00#8 else 0xFE#8).getLsbD (i + 1) = !marker := by
  interval_cases i <;> cases marker <;> rfl

/-- Adding each link of the chain to the one before gives the byte back. -/
theorem codeWord_unchained (v : Byte) :
    codeWord v ^^^ (codeWord v <<< 1) ^^^ (if markerBit v then 0x00#8 else 0xFE#8) = v := by
  refine BitVec.eq_of_getLsbD_eq fun i hi => ?_
  rw [BitVec.getLsbD_xor, BitVec.getLsbD_xor, BitVec.getLsbD_shiftLeft, codeWord_getLsbD v hi]
  cases i with
  | zero => cases markerBit v <;> simp [chainBit]
  | succ i =>
    rw [Nat.add_sub_cancel, codeWord_getLsbD v (Nat.lt_of_succ_lt hi), chainBit_succ,
      chainMask_getLsbD_succ _ (Nat.lt_of_succ_lt_succ hi), decide_eq_true hi]
    cases markerBit v <;> cases chainBit v i <;> cases v.getLsbD (i + 1) <;> rfl

theorem tmdsDecode_tmds (v : Byte) (d : Int) : tmdsDecode (tmds v d).1 = v := by
  obtain ⟨inv, hsym⟩ := tmds_symbol v d
  have hcode : (if inv then ~~~(if inv then ~~~codeWord v else codeWord v)
      else if inv then ~~~codeWord v else codeWord v) = codeWord v := by cases inv <;> simp
  simp only [tmdsDecode, hsym, mkSymbol_getLsbD_9, mkSymbol_getLsbD_8, mkSymbol_low, hcode,
    codeWord_unchained]

/-- The byte a default control symbol would decode to has another code word or marker. -/
theorem ctrlSym_not_encoded : ∀ c1 c0 inv : Bool,
    ctrlSym defaultParams c1 c0 ≠ mkSymbol inv (markerBit (tmdsDecode (ctrlSym defaultParams c1 c0)))
      (if inv then ~~~codeWord (tmdsDecode (ctrlSym defaultParams c1 c0))
       else codeWord (tmdsDecode (ctrlSym defaultParams c1 c0))) := by
  decide

theorem tmds_ne_ctrlSym (v : Byte) (d : Int) (c1 c0 : Bool) :
    (tmds v d).1 ≠ ctrlSym defaultParams c1 c0 := by
  intro hctrl
  obtain ⟨inv, hsym⟩ := tmds_symbol v d
  have hv : tmdsDecode (ctrlSym defaultParams c1 c0) = v := hctrl ▸ tmdsDecode_tmds v d
  refine ctrlSym_not_encoded c1 c0 inv ?_
  rw [hv, ← hsym, hctrl]

/-- Each default TERC4 symbol is what its own decoding encodes to, from disparity 0. -/
theorem terc4Sym_encoded : ∀ n : BitVec 4,
    (tmds (tmdsDecode (terc4Sym defaultParams n)) 0).1 = terc4Sym defaultParams n := by
  decide

/-- Settles O15: a symbol decodes to its byte, which leaves one candidate for each control symbol and
gives one for each TERC4 symbol; the bytes of the guard bands have balanced code words. -/
theorem encoderNeverEmitsControl : Obligations.EncoderNeverEmitsControl := by
  refine ⟨fun v d _ _ => tmds_ne_ctrlSym v d, fun d _ _ => ⟨?vgb1, ?vgb0⟩,
    fun n => ⟨_, 0, by decide, by decide, terc4Sym_encoded n⟩⟩
  all_goals
    rw [tmds_of_balanced (by decide)]
    dsimp only
    decide

/-! ## ENC_OUT (10_state.md R36) -/

/-- The fields of the ENC_OUT word, and the zeros between and above them. -/
theorem encOutWord_fields (sym : Symbol) (disp : BitVec 5) :
    (encOutWord sym disp).extractLsb' 0 10 = sym ∧ (encOutWord sym disp).extractLsb' 16 5 = disp ∧
      (encOutWord sym disp).extractLsb' 10 6 = 0#6 ∧
      (encOutWord sym disp).extractLsb' 21 11 = 0#11 := by
  refine ⟨BitVec.extractLsb'_append_eq_right, ?_, ?_, ?_⟩ <;>
  · refine BitVec.eq_of_getLsbD_eq fun i hi => ?_
    simp only [encOutWord, BitVec.getLsbD_extractLsb', BitVec.getLsbD_append]
    interval_cases i <;> simp

/-- Five bits hold every disparity from -16 to 15 exactly. -/
theorem toInt_twos5 {d : Int} (hlo : -16 ≤ d) (hhi : d ≤ 15) : (twos5 d).toInt = d := by
  rw [twos5, BitVec.toInt_ofInt, Int.bmod_eq_of_le] <;> omega

/-- Settles O18: one symbol moves a disparity within 8 to one within 10, which ENC_OUT holds exactly. -/
theorem encOutReadsBack : Obligations.EncOutReadsBack := by
  rintro s v d rfl rfl hlo hhi
  obtain ⟨hzero, hpos, hneg⟩ := tmds_disparity_toward_zero (encValue (sources s).regs.encIn)
    (encDispIn (sources s).regs.encIn)
  refine ⟨_, execEnc_of_inRange hlo hhi, ?_⟩
  obtain ⟨hsym, hdisp, hgap, hhigh⟩ := encOutWord_fields
    (tmds (encValue (sources s).regs.encIn) (encDispIn (sources s).regs.encIn)).1
    (twos5 (tmds (encValue (sources s).regs.encIn) (encDispIn (sources s).regs.encIn)).2)
  exact ⟨hsym, (congrArg BitVec.toInt hdisp).trans (toInt_twos5 (by omega) (by omega)), hgap, hhigh⟩

/-! ## Chained LUT entries (41_lut_builder.md R186, R190) -/

theorem tripleEncode_keeps_evenDisparity (v : Byte) {d : Int} (hd : EvenDisparity d) :
    EvenDisparity (tripleEncode v d).2.2.2 :=
  tmds_keeps_evenDisparity v (tmds_keeps_evenDisparity v (tmds_keeps_evenDisparity v hd))

/-- The bucket an even disparity stands in (R182). -/
theorem exists_bucket {d : Int} (hd : EvenDisparity d) : ∃ b : Nat, b ≤ 8 ∧ (b : Int) = (d + 8) / 2 :=
  ⟨((d + 8) / 2).toNat, by omega, by omega⟩

theorem bucketWord_toNat {b : Nat} (hb : b ≤ 8) : (BitVec.ofInt 32 (b : Int) <<< 6).toNat = 64 * b := by
  rw [BitVec.ofInt_natCast, BitVec.toNat_shiftLeft, BitVec.toNat_ofNat, Nat.shiftLeft_eq]
  omega

/-- An even colour index and a bucket's word have no bit in common (R190). -/
theorem colour_or_bucket {c : Nat} (hc : c < 32) (b : Nat) : (2 * c) ||| (64 * b) = 64 * b + 2 * c := by
  rw [Nat.or_comm, ← Nat.two_pow_add_eq_or_of_lt (i := 6) (by omega)]

/-- The entries of the default table that end at +8, counted over all 288 (R186). -/
theorem ends_at_eight_count : ((List.range 32).flatMap fun c => (List.range 9).filter fun b =>
    decide ((tripleEncode (lutValue defaultParams (BitVec.ofNat 5 c)) (2 * (b : Int) - 8)).2.2.2
      = 8)).length = 15 := by
  decide

/-- Settles O20: three symbols keep an even disparity even and within 8, so that its bucket's word, ORed
with a colour index, is the index where LUT_MEM holds that bucket's slot. -/
theorem lutEntriesClose : Obligations.LutEntriesClose := by
  refine ⟨?_, ends_at_eight_count⟩
  rintro s t h c c' b v hb rfl
  have hstart : EvenDisparity (2 * (b : Int) - 8) := by omega
  have hend := tripleEncode_keeps_evenDisparity (lutValue s.params c) hstart
  obtain ⟨b', hb', hbucket⟩ := exists_bucket hend
  have hword1 := memGet_lutMem_of_buildLut h (b := b) (c := c.toNat) (j := 1) (by omega) c.isLt
    (by decide)
  rw [lutSlot_of_le _ hb] at hword1
  refine ⟨?even, _, b', hword1, ?word, hb', hbucket, ?next⟩
  case even =>
    rintro d (rfl | rfl)
    · exact tmds_keeps_evenDisparity _ hstart
    · exact hend
  case word =>
    rw [bucketDisparity, ← hbucket]
    exact bucketWord_toNat hb'
  case next =>
    rw [bucketDisparity, ← hbucket, bucketWord_toNat hb', colour_or_bucket c'.isLt]
    exact memGet_lutMem_of_buildLut h (b := b') (j := 0) (by omega) c'.isLt (by decide)

/-! ## PACK, then UNPACK (42_bit_packer.md R205) -/

/-- The values of the first n elements of a memory, where they are written. -/
theorem exists_values_of_written {w n : Nat} {m : Memory w} (h : ∀ i < n, memGet m i ≠ none) :
    ∃ vs : List (BitVec w), vs.length = n ∧ ∀ i < n, memGet m i = vs[i]? := by
  refine ⟨(List.range n).map fun i => (memGet m i).getD 0, by simp, fun i hi => ?_⟩
  obtain ⟨v, hv⟩ := Option.ne_none_iff_exists'.1 (h i hi)
  simp [hi, hv]

/-- The sources of a command just issued are those of the state it was issued in. -/
theorem sources_issueCommand (w : Word) (s : State) : sources (issueCommand w s) = takeSnapshot s :=
  rfl

/-- Settles O26: UNPACK reads the words PACK has just written, whose symbols are those PACK_IN holds. -/
theorem packThenUnpackRestores : Obligations.PackThenUnpackRestores := by
  intro s n hn hwritten
  obtain ⟨syms, hlen, hsyms⟩ := exists_values_of_written hwritten
  refine ⟨_, _, execPack_of_holds hn hlen hsyms,
    execUnpack_of_holds (ws := packSymbols syms) hn (by rw [packSymbols_length, hlen]) ?held, ?kept⟩
  case held =>
    intro i hi
    simp only [sources_issueCommand, takeSnapshot_packOut, finish_packOut, memGet_memPut_zero, if_pos hi]
  case kept =>
    intro i
    simp only [finish_packIn, issueCommand_packIn, memGet_memPut_zero, unpackSymbols_length]
    split
    case isTrue hi => rw [← hlen, unpackSymbols_packSymbols, hsyms i hi]
    case isFalse => rfl

/-! ## The packet checksum (44_infoframe_builder.md R252, R253) -/

/-- Settles O27: the body adds VIC alone, so the checksum is the negative of three header bytes and
VIC. -/
theorem packetChecksumZero : Obligations.PacketChecksumZero := by
  refine ⟨fun p vic => ?sum, fun vic => ?default⟩
  case sum =>
    have hbody : ((aviBody vic).map BitVec.toNat).sum = vic.toNat := by simp [aviBody]
    rw [hbody, packetChecksum, byteSum_aviBody]
    bv_omega
  case default =>
    have hheader : headerByte defaultParams 0 + headerByte defaultParams 1 +
        headerByte defaultParams 2 = 0x91#8 := by decide
    rw [packetChecksum, byteSum_aviBody, hheader]
    bv_omega

/-! ## Two regions in either order (43_blanking_framer.md R237) -/

/-- The streams a region takes from INFO_MEM, where its words are written. -/
theorem exists_streamSource {info : Memory 32} {di : Bool}
    (h : di = true → ∀ i < 40, memGet info i ≠ none) : ∃ st, StreamSource info di st := by
  cases di with
  | false => exact ⟨_, .plain⟩
  | true =>
    obtain ⟨ws, hlen, hws⟩ := exists_values_of_written (h rfl)
    exact ⟨_, .island ws (memGetRange_of_holds .infoMem hlen hws)⟩

/-- A BUILD_REGION whose checks pass and whose streams are there stores its region. -/
theorem runCommand_buildRegion {s : State} {kind : RegionKind} {di : Bool} {st : Streams}
    (hchecks : regionError s.regs s.status.aviValid di = none) (hst : StreamSource s.infoMem di st) :
    runCommand (.buildRegion kind di) s =
      .next (storeRegion st kind di (issueCommand (encode (.buildRegion kind di)) s)) := by
  simp only [runCommand, exec, execBuildRegion, sources_issueCommand, takeSnapshot_regs,
    takeSnapshot_aviValid, takeSnapshot_infoMem, hchecks]
  cases hst with
  | plain => rfl
  | island ws hws => simp [hws]

theorem putRegionBit_comm (field : BitVec 4) {k k' : Nat} (hk : k ≠ k') (b b' : Bool) :
    putRegionBit (putRegionBit field k b) k' b' = putRegionBit (putRegionBit field k' b') k b := by
  refine BitVec.eq_of_getLsbD_eq fun i hi => ?_
  change regionBit _ i = regionBit _ i
  simp only [regionBit_putRegionBit _ hi]
  grind

/-- A region writes into an element the same value, or leaves it, whatever the memory holds. -/
theorem memGet_putRegion_congr {m m' : Memory 32} {i : Nat} (h : memGet m i = memGet m' i) (p : Params)
    (r : HostRegs) (st : Streams) (kind : RegionKind) (di : Bool) :
    memGet (putRegion p r st kind di m) i = memGet (putRegion p r st kind di m') i := by
  simp only [putRegion, memGet_memPut, h]

/-- Every element is outside the blocks of one of two kinds, which the other kind's region may write. -/
theorem memGet_putRegion_comm {k k' : RegionKind} (hk : k ≠ k') (p : Params) {r : HostRegs}
    (hfit : 5 * groupsOf (regionLength r) ≤ 256) (st st' : Streams) (di di' : Bool) (m : Memory 32)
    (i : Nat) : memGet (putRegion p r st' k' di' (putRegion p r st k di m)) i =
      memGet (putRegion p r st k di (putRegion p r st' k' di' m)) i := by
  by_cases hout : ∀ c, i < regionBase (kindIndex k) (channelIndex c) ∨
      regionBase (kindIndex k) (channelIndex c) + 5 * groupsOf (regionLength r) ≤ i
  · rw [memGet_putRegion_outside i hout]
    exact memGet_putRegion_congr (memGet_putRegion_outside i hout) ..
  · have hout' : ∀ c, i < regionBase (kindIndex k') (channelIndex c) ∨
        regionBase (kindIndex k') (channelIndex c) + 5 * groupsOf (regionLength r) ≤ i := by
      push Not at hout
      obtain ⟨c, hlo, hhi⟩ := hout
      obtain ⟨w, rfl⟩ := Nat.exists_eq_add_of_le hlo
      intro c'
      have := regionBase_disjoint hk c' c (w := w) (by omega)
      omega
    rw [memGet_putRegion_outside i hout']
    exact (memGet_putRegion_congr (memGet_putRegion_outside i hout') ..).symm

/-- Settles O36: a build moves neither the registers, nor AVI_VALID, nor INFO_MEM, so that the second
takes what it would take alone, and the blocks and bits of two kinds do not meet. -/
theorem regionBuildsCommute : Obligations.RegionBuildsCommute := by
  intro s k₁ k₂ d₁ d₂ hk hchecks₁ hchecks₂ hwritten
  obtain ⟨st₁, hst₁⟩ := exists_streamSource fun hd => hwritten (.inl hd)
  obtain ⟨st₂, hst₂⟩ := exists_streamSource fun hd => hwritten (.inr hd)
  refine ⟨_, _, _, _, runCommand_buildRegion hchecks₁ hst₁, runCommand_buildRegion hchecks₂ hst₂,
    runCommand_buildRegion hchecks₂ hst₂, runCommand_buildRegion hchecks₁ hst₁, ?status, fun i => ?mem⟩
  case status =>
    have hbits := kindIndex_inj.not.2 hk
    simp [storeRegion, statusRegionBuilt, statusIssued, statusDone, putRegionBit_comm _ hbits]
  case mem =>
    exact memGet_putRegion_comm hk s.params (groupsOf_of_regionError hchecks₁) st₁ st₂ d₁ d₂
      s.regionMem i

end Sys2Proof.Machine

/-! PROOFS. What the host sees: the STATUS word, the address map, what reads answer and what the
registers and buffers read back (10_state.md R34 to R39, R45, R46; 20_memory.md R72, R75, R79). -/

namespace Sys2Proof.Machine

/-! ## The STATUS word (10_state.md R34) -/

/-- Each bit of the STATUS word is a bit of one field, or 0. -/
theorem statusWord_getLsbD (st : Status) {i : Nat} (hi : i < 32) :
    (statusWord st).getLsbD i =
      if i = 0 then st.busy else if i = 1 then st.err else if i = 2 then st.aviValid
      else if i = 3 then st.lutValid
      else if i < 8 then st.errCode.getLsbD (i - 4)
      else if i < 12 then st.regionValid.getLsbD (i - 8)
      else if i < 16 then st.regionDi.getLsbD (i - 12)
      else false := by
  simp only [statusWord, BitVec.getLsbD_append, BitVec.getLsbD_zero, BitVec.getLsbD_ofBool]
  interval_cases i <;> rfl

/-- Settles O5: each field is read off the bits of the word. -/
theorem statusWordLayout : Obligations.StatusWordLayout := by
  intro st
  refine ⟨statusWord_getLsbD st (i := 0) (by decide), statusWord_getLsbD st (i := 1) (by decide),
    statusWord_getLsbD st (i := 2) (by decide), statusWord_getLsbD st (i := 3) (by decide), ?errCode,
    fun k hk => ⟨?valid, ?di⟩, ?above⟩
  case errCode | above =>
    refine BitVec.eq_of_getLsbD_eq fun i hi => ?_
    rw [BitVec.getLsbD_extractLsb', statusWord_getLsbD st (by omega)]
    interval_cases i <;> simp
  case valid | di =>
    rw [statusWord_getLsbD st (by omega), regionBit]
    interval_cases k <;> rfl

/-! ## The address map (20_memory.md R72) -/

theorem legalAccess_of_locate {n : Nat} {loc : Loc} (hn : n < 0x10000) (haligned : n % 4 = 0)
    (hloc : locate n = some loc) : legalAccess .word (BitVec.ofNat 16 n) = some loc := by
  have ha : (BitVec.ofNat 16 n).toNat = n := by
    rw [BitVec.toNat_ofNat, Nat.mod_eq_of_lt hn]
  rw [legalAccess_eq_some, ha]
  exact ⟨rfl, haligned, hloc⟩

/-- The index of an element from the offset of its word. -/
theorem index_of_offset (base i : Nat) : (base + 4 * i - base) / 4 = i := by
  omega

theorem legalAccess_reg {i : Nat} {r : Reg} (h : [Reg.cmd, .status, .encIn, .encOut, .hActive, .hFp,
    .hPulse, .hBp, .hTotal, .syncCfg, .vic][i]? = some r) :
    legalAccess .word (BitVec.ofNat 16 (4 * i)) = some (.reg r) := by
  have hi : i < 11 := (List.getElem?_eq_some_iff.1 h).1
  interval_cases i <;> cases h <;> rfl

theorem legalAccess_gbRom {i : Nat} (hi : i < 4) :
    legalAccess .word (BitVec.ofNat 16 (0x0150 + 4 * i)) = some (.gbRom i) := by
  interval_cases i <;> rfl

theorem legalAccess_lutMem {i : Nat} (hi : i < 1024) :
    legalAccess .word (BitVec.ofNat 16 (0x1000 + 4 * i)) = some (.lutMem i) := by
  refine legalAccess_of_locate (by omega) (by omega) ?_
  rw [locate]
  iterate 4 rw [if_neg (by omega)]
  rw [if_pos (by omega), index_of_offset]

theorem legalAccess_infoMem {i : Nat} (hi : i < 40) :
    legalAccess .word (BitVec.ofNat 16 (0x2000 + 4 * i)) = some (.infoMem i) := by
  refine legalAccess_of_locate (by omega) (by omega) ?_
  rw [locate]
  iterate 5 rw [if_neg (by omega)]
  rw [if_pos (by omega), index_of_offset]

/-- The block number 3 k + c and the word are the two digits of the offset in base 256 words. -/
theorem legalAccess_regionMem {k c w : Nat} (hk : k < 4) (hc : c < 3) (hw : w < 256) :
    legalAccess .word (BitVec.ofNat 16 (0x4000 + 0x400 * (3 * k + c) + 4 * w)) =
      some (.regionMem k c w) := by
  refine legalAccess_of_locate (by omega) (by omega) ?_
  have hblock : (0x4000 + 0x400 * (3 * k + c) + 4 * w - 0x4000) / 0x400 = 3 * k + c := by omega
  have hword : (0x4000 + 0x400 * (3 * k + c) + 4 * w - 0x4000) % 0x400 / 4 = w := by omega
  have hkind : (3 * k + c) / 3 = k := by omega
  have hchannel : (3 * k + c) % 3 = c := by omega
  rw [locate]
  iterate 6 rw [if_neg (by omega)]
  rw [if_pos (by omega), hblock, hword, hkind, hchannel]

theorem legalAccess_packIn {i : Nat} (hi : i < 1024) :
    legalAccess .word (BitVec.ofNat 16 (0x8000 + 4 * i)) = some (.packIn i) := by
  refine legalAccess_of_locate (by omega) (by omega) ?_
  rw [locate]
  iterate 7 rw [if_neg (by omega)]
  rw [if_pos (by omega), index_of_offset]

theorem legalAccess_packOut {i : Nat} (hi : i < 320) :
    legalAccess .word (BitVec.ofNat 16 (0x9000 + 4 * i)) = some (.packOut i) := by
  refine legalAccess_of_locate (by omega) (by omega) ?_
  rw [locate]
  iterate 8 rw [if_neg (by omega)]
  rw [if_pos (by omega), index_of_offset]

/-- Settles O48: each element is at its address, and an unmapped address is a case of no location. -/
theorem addressMap : Obligations.AddressMap := by
  refine ⟨fun i r => legalAccess_reg, fun i => legalAccess_terc4Rom, fun i hi => ?ctrlRom,
    fun i => legalAccess_gbRom, fun i => legalAccess_lutMem, fun i => legalAccess_infoMem,
    fun k hk c hc w => legalAccess_regionMem hk hc, fun i => legalAccess_packIn,
    fun i => legalAccess_packOut, fun a ha => legalAccess_eq_none_iff.2 (.inr (.inr ha))⟩
  case ctrlRom => interval_cases i <;> rfl

/-! ## What a read answers (20_memory.md R75, R79; 60_exceptions.md R312) -/

theorem drawsFree_of_idle {s : State} (hidle : s.status.busy = false) (loc : Loc) :
    drawsFree s loc = false := by
  simp [drawsFree, hidle]

theorem drawsFree_of_not_pending {s : State} (hnone : s.pending = none) (loc : Loc) :
    drawsFree s loc = false := by
  simp [drawsFree, fetchCommand, hnone]

theorem drawsFree_of_pending {s : State} {p : Pending} (hp : s.pending = some p) (loc : Loc) :
    drawsFree s loc = (s.status.busy && isDestination (decodeWord p.word) loc) := by
  simp [drawsFree, fetchCommand, hp]

theorem hostReadLoc_of_error {s : State} {loc : Loc} {e : Element} (hv : readLoc s loc = .error e) :
    hostReadLoc loc s = recordFault (.uninitRead e) s := by
  simp [hostReadLoc, hv]

theorem hostReadLoc_of_draw {s : State} {loc : Loc} {v : Word} (hv : readLoc s loc = .ok v)
    (hdraw : drawsFree s loc = true) : hostReadLoc loc s = answerDrawn loc s := by
  simp [hostReadLoc, hv, hdraw]

theorem hostReadLoc_of_value {s : State} {loc : Loc} {v : Word} (hv : readLoc s loc = .ok v)
    (hdraw : drawsFree s loc = false) : hostReadLoc loc s = answer v s := by
  simp [hostReadLoc, hv, hdraw]

/-- The element a read names is the one at its location. -/
theorem elementOf_of_error {s : State} {loc : Loc} {e : Element} (hv : readLoc s loc = .error e) :
    elementOf loc = some e := by
  cases loc with
  | reg | terc4Rom | ctrlRom | gbRom => cases hv
  | lutMem | infoMem | regionMem | packIn | packOut =>
    simp only [readLoc, readElement] at hv
    split at hv <;> cases hv
    rfl

/-- Settles O54: a value is drawn exactly while BUSY = 1 and the pending command writes the location. -/
theorem readAnswers : Obligations.ReadAnswers := by
  intro s a loc ha
  rw [hostRead_of_legalAccess ha]
  refine ⟨fun e hv => ⟨hostReadLoc_of_error hv, elementOf_of_error hv⟩,
    fun v p hv hbusy hp hdest => ?draw, fun v hv hcase => ?value⟩
  case draw =>
    exact hostReadLoc_of_draw hv (by rw [drawsFree_of_pending hp, hbusy, hdest]; rfl)
  case value =>
    refine hostReadLoc_of_value hv ?_
    obtain hidle | hnone | ⟨p, hp, hdest⟩ := hcase
    · exact drawsFree_of_idle hidle loc
    · exact drawsFree_of_not_pending hnone loc
    · rw [drawsFree_of_pending hp, hdest, Bool.and_false]

/-- Settles O53: an answer and a recorded fault change nothing that a read reads. -/
theorem readsChangeNothing : Obligations.ReadsChangeNothing := by
  rintro s t width a rfl
  refine ⟨?frame, fun loc ha hdraw => ?twice⟩
  case frame =>
    obtain ⟨-, hread⟩ | ⟨loc, -, hread⟩ := hostRead_cases width a s
    · rw [hread]; rfl
    · rw [hread]
      obtain ⟨_, -, -, hloc⟩ | ⟨_, -, -, hloc⟩ | ⟨_, -, hloc⟩ := hostReadLoc_cases loc s <;>
        rw [hloc] <;> rfl
  case twice =>
    rw [hostRead_of_legalAccess ha, hostRead_of_legalAccess ha]
    cases hv : readLoc s loc with
    | error e =>
      have hagain : readLoc (recordFault (.uninitRead e) s) loc = .error e := by
        rw [← hv]; cases loc <;> rfl
      rw [hostReadLoc_of_error hv, hostReadLoc_of_error hagain]
      exact ⟨rfl, rfl⟩
    | ok v =>
      have hagain : readLoc (answer v s) loc = .ok v := by rw [← hv]; cases loc <;> rfl
      rw [hostReadLoc_of_value hv hdraw, hostReadLoc_of_value hagain hdraw]
      exact ⟨rfl, rfl⟩

/-- In a state whose memories are empty every element is unwritten. -/
theorem readLoc_of_empty {t : State} (hlut : t.lutMem = []) (hinfo : t.infoMem = [])
    (hregion : t.regionMem = []) (hin : t.packIn = []) (hout : t.packOut = []) {loc : Loc}
    {e : Element} (he : elementOf loc = some e) : readLoc t loc = .error e := by
  cases loc <;> cases he <;> simp [readLoc, readElement, memGet, hlut, hinfo, hregion, hin, hout]

/-- Settles O9: both resets leave the five memories empty. -/
theorem resetLeavesMemoriesUnwritten : Obligations.ResetLeavesMemoriesUnwritten := by
  intro s t a loc e ht ha he
  rw [hostRead_of_legalAccess ha]
  obtain rfl | rfl := ht <;>
    exact hostReadLoc_of_error (readLoc_of_empty rfl rfl rfl rfl rfl he)

/-! ## What the registers read back (10_state.md R35 to R39) -/

/-- The low n bits of a word, read back in a word. -/
theorem setWidth_low_bits (v : Word) (n : Nat) :
    (v.extractLsb' 0 n).setWidth 32 = v &&& BitVec.ofNat 32 (2 ^ n - 1) := by
  refine BitVec.eq_of_getLsbD_eq fun i hi => ?_
  rw [BitVec.getLsbD_setWidth, BitVec.getLsbD_extractLsb', BitVec.getLsbD_and, BitVec.getLsbD_ofNat,
    Nat.testBit_two_pow_sub_one, Nat.zero_add]
  simp [hi, Bool.and_comm]

theorem syncCfgWord_low_bits (v : Word) :
    syncCfgWord (v.getLsbD 0) (v.getLsbD 1) = v &&& 0x00000003#32 := by
  refine BitVec.eq_of_getLsbD_eq fun i hi => ?_
  simp only [syncCfgWord, BitVec.getLsbD_append, BitVec.getLsbD_and]
  interval_cases i <;> simp

/-- With BUSY = 0 a legal read of a register answers its value. -/
theorem hostRead_reg_of_idle {a : Addr} {r : Reg} {t : State} {v : Word}
    (ha : legalAccess .word a = some (.reg r)) (hidle : t.status.busy = false)
    (hv : readReg t r = v) : hostRead .word a t = { t with reply := some v } := by
  rw [hostRead_of_legalAccess ha, hostReadLoc_of_value rfl (drawsFree_of_idle hidle _), hv]
  rfl

/-- Settles O51: the register holds its low bits of the word, and reads as them. -/
theorem registersReadBack : Obligations.RegistersReadBack := by
  rintro s t a v mask hidle hreg rfl
  obtain ⟨hencIn, hhActive, hhFp, hhPulse, hhBp, hhTotal, hsyncCfg, hvic⟩ :=
    configWritesInvalidate s v hidle
  simp only [List.mem_cons, List.not_mem_nil, or_false, Prod.mk.injEq] at hreg
  obtain ⟨rfl, rfl⟩ | ⟨rfl, rfl⟩ | ⟨rfl, rfl⟩ | ⟨rfl, rfl⟩ | ⟨rfl, rfl⟩ | ⟨rfl, rfl⟩ | ⟨rfl, rfl⟩ |
    ⟨rfl, rfl⟩ := hreg
  · rw [hencIn]
    exact hostRead_reg_of_idle (r := .encIn) rfl hidle (setWidth_low_bits v 13)
  · rw [hhActive]
    exact hostRead_reg_of_idle (r := .hActive) rfl hidle (setWidth_low_bits v 16)
  · rw [hhFp]
    exact hostRead_reg_of_idle (r := .hFp) rfl hidle (setWidth_low_bits v 16)
  · rw [hhPulse]
    exact hostRead_reg_of_idle (r := .hPulse) rfl hidle (setWidth_low_bits v 16)
  · rw [hhBp]
    exact hostRead_reg_of_idle (r := .hBp) rfl hidle (setWidth_low_bits v 16)
  · rw [hhTotal]
    exact hostRead_reg_of_idle (r := .hTotal) rfl hidle (setWidth_low_bits v 16)
  · rw [hsyncCfg]
    exact hostRead_reg_of_idle (r := .syncCfg) rfl hidle (syncCfgWord_low_bits v)
  · rw [hvic]
    exact hostRead_reg_of_idle (r := .vic) rfl hidle (setWidth_low_bits v 8)

/-! ## What the buffers read back (10_state.md R45, R46) -/

/-- A write of one element. -/
theorem memGet_memPut_single {w : Nat} (m : Memory w) (i j : Nat) (v : BitVec w) :
    memGet (memPut m i [v]) j = if j = i then some v else memGet m j := by
  rw [memGet_memPut]
  by_cases hj : j = i
  · simp [hj]
  · rw [if_neg (by simp; omega), if_neg hj]

/-- Settles O52: the write puts one element, which reads back, and every other location is read as
before. -/
theorem buffersReadBack : Obligations.BuffersReadBack := by
  intro s t v i hidle
  refine ⟨fun hi ht => ?packIn, fun hi ht => ?packOut⟩
  case packIn =>
    rw [hostWrite_of_idle (legalAccess_packIn hi) rfl hidle] at ht
    subst ht
    refine ⟨rfl, ?same, fun loc hloc => ?other⟩
    case same =>
      simp only [readLoc, memGet_memPut_single, if_true, readElement]
      exact congrArg Except.ok (setWidth_low_bits v 10)
    case other =>
      cases loc with
      | packIn j =>
        have hj : j ≠ i := fun hj => hloc (congrArg Loc.packIn hj)
        simp only [readLoc, memGet_memPut_single, if_neg hj]
      | _ => rfl
  case packOut =>
    rw [hostWrite_of_idle (legalAccess_packOut hi) rfl hidle] at ht
    subst ht
    refine ⟨rfl, ?same, fun loc hloc => ?other⟩
    case same => simp [readLoc, memGet_memPut_single, readElement]
    case other =>
      cases loc with
      | packOut j =>
        have hj : j ≠ i := fun hj => hloc (congrArg Loc.packOut hj)
        simp only [readLoc, memGet_memPut_single, if_neg hj]
      | _ => rfl

end Sys2Proof.Machine
